-- ==== Sys2Proof/Word.lean ====
section
/-! DEFINITION. The three word types of the SC 61860 (00_scope.md rule R5): bytes, 7-bit internal-RAM
pointers and 16-bit words. Everything that splits or joins them stands in Machine/Bytes.lean. -/

namespace Sys2Proof

/-- A data word: 8 bits (R5). -/
abbrev Byte := BitVec 8

/-- An internal-RAM address, the width of P, Q and R (R5). -/
abbrev Ptr := BitVec 7

/-- An external or program address, the width of DP, PC, X, Y and BA (R5). -/
abbrev Word := BitVec 16

end Sys2Proof
end

