-- ==== Sys2Proof/Machine/Bytes.lean ====
section
/-! DEFINITION. Splitting and joining words: the byte orders of 20_memory.md rules R66 and R67 are
decided by the callers, which name the high and the low byte. -/

namespace Sys2Proof

/-- `a:b` of 00_scope.md rule R11 for two bytes: `hi` the more significant one. -/
def joinBytes (hi lo : Byte) : Word := hi ++ lo

/-- The high byte of a word (PCH, DPH of R11). -/
def hiByte (w : Word) : Byte := w.extractLsb' 8 8

/-- The low byte of a word (PCL, DPL of R11). -/
def loByte (w : Word) : Byte := w.extractLsb' 0 8

/-- An 8-bit value stored into P, Q or R loses bit 7 (10_state.md rule R30). -/
def toPtr (v : Byte) : Ptr := v.extractLsb' 0 7

/-- P, Q or R copied to A: `zext_8`, so bit 7 of A becomes 0 (10_state.md rule R30). -/
def ofPtr (p : Ptr) : Byte := p.setWidth 8

/-- The high digit of a byte, bits 7..4 (43_block_bcd.md rule R280). -/
def hiNibble (v : Byte) : BitVec 4 := v.extractLsb' 4 4

/-- The low digit of a byte, bits 3..0 (43_block_bcd.md rule R280). -/
def loNibble (v : Byte) : BitVec 4 := v.extractLsb' 0 4

/-- Two digits as a byte, `hi` in bits 7..4. -/
def joinNibbles (hi lo : BitVec 4) : Byte := hi ++ lo

end Sys2Proof
end

