-- ==== Sys2Proof/Machine/Flags.lean ====
section
/-! DEFINITION. The arithmetic unit and the flags it computes (10_state.md rules R35 and R44): exact integer
arithmetic narrowed at the end, as 41_arithmetic_logic.md rule R170 writes it. -/

namespace Sys2Proof.Machine

/-- An 8-bit result with the two flags. -/
structure Alu8 where
  value : Byte
  carry : Bool
  zero : Bool
deriving DecidableEq, Repr

/-- A 16-bit result with the two flags. -/
structure Alu16 where
  value : Word
  carry : Bool
  zero : Bool
deriving DecidableEq, Repr

/-- `Z <- 1` if the byte is zero, else 0 (R35, R171). -/
def isZero (v : Byte) : Bool := v == 0

/-- `add8(x, y, cin)` (R170). -/
def add8 (x y : Byte) (cin : Bool) : Alu8 :=
  let sum := x.toNat + y.toNat + cin.toNat
  { value := BitVec.ofNat 8 sum
    carry := decide (255 < sum)
    zero := isZero (BitVec.ofNat 8 sum) }

/-- `sub8(x, y, bin)` (R170): the carry flag is a borrow. -/
def sub8 (x y : Byte) (bin : Bool) : Alu8 :=
  let diff : Int := (x.toNat : Int) - (y.toNat : Int) - (bin.toNat : Int)
  { value := BitVec.ofInt 8 diff
    carry := decide (diff < 0)
    zero := isZero (BitVec.ofInt 8 diff) }

/-- The 16-bit sum of ADB (R180); Z looks at all sixteen bits. -/
def add16 (x y : Word) : Alu16 :=
  let sum := x.toNat + y.toNat
  { value := BitVec.ofNat 16 sum
    carry := decide (65535 < sum)
    zero := BitVec.ofNat 16 sum == 0 }

/-- The 16-bit difference of SBB (R181); Z looks at all sixteen bits. -/
def sub16 (x y : Word) : Alu16 :=
  let diff : Int := (x.toNat : Int) - (y.toNat : Int)
  { value := BitVec.ofInt 16 diff
    carry := decide (diff < 0)
    zero := BitVec.ofInt 16 diff == 0 }

/-- SL (R197): `A[6:0] : C`, the bit shifted out into C, Z from the result. -/
def rotateLeft (x : Byte) (cin : Bool) : Alu8 :=
  let v : Byte := x.extractLsb' 0 7 ++ BitVec.ofBool cin
  { value := v
    carry := x.getLsbD 7
    zero := isZero v }

/-- SR (R198): `C : A[7:1]`, the bit shifted out into C; SR does not write Z, whatever stands in `zero`. -/
def rotateRight (x : Byte) (cin : Bool) : Alu8 :=
  let v : Byte := BitVec.ofBool cin ++ x.extractLsb' 1 7
  { value := v
    carry := x.getLsbD 0
    zero := isZero v }

/-! ### Packed BCD (43_block_bcd.md rule R280) -/

/-- Both digits of the byte are decimal. -/
def isBcd (x : Byte) : Bool := decide (hiNibble x ≤ 9) && decide (loNibble x ≤ 9)

/-- `dec(x)`: ten times the high digit plus the low digit. -/
def bcdValue (x : Byte) : Nat := 10 * (hiNibble x).toNat + (loNibble x).toNat

/-- `bcd(n)`: the byte with digits `n div 10` and `n mod 10`. -/
def bcdByte (n : Nat) : Byte := joinNibbles (BitVec.ofNat 4 (n / 10)) (BitVec.ofNat 4 (n % 10))

/-- `bcdadd(x, y, cin)`: the result byte and the carry out. -/
def bcdAdd (x y : Byte) (cin : Bool) : Byte × Bool :=
  let v := bcdValue x + bcdValue y + cin.toNat
  (bcdByte (v % 100), decide (99 < v))

/-- `bcdsub(x, y, bin)`: the result byte and the borrow out. -/
def bcdSub (x y : Byte) (bin : Bool) : Byte × Bool :=
  let v : Int := (bcdValue x : Int) - (bcdValue y : Int) - (bin.toNat : Int)
  (bcdByte (v % 100).toNat, decide (v < 0))

end Sys2Proof.Machine
end

