-- ==== Sys2Proof/Config.lean ====
section
/-! DEFINITION. What the spec leaves to the platform (00_scope.md rule R6), as plain data a state carries and
no step changes, and the values it leaves wholly open (the draws `any(N)` of rule R11), as constants that
nothing in Lean can evaluate. -/

namespace Sys2Proof

/-- `any(8)` of R11: the byte of draw number `k`. Nothing constrains it (log entry 1). -/
opaque Config.anyByte : Nat → Byte

/-- `any(7)` of R11: the pointer value of draw number `k` (log entry 1). -/
opaque Config.anyPtr : Nat → Ptr

/-- `any(1)` of R11: the flag of draw number `k` (log entry 1). -/
opaque Config.anyFlag : Nat → Bool

/-- What memory holds at an address that nothing has written: `INTROM[a]` below &2000 (20_memory.md rule R62,
93_implementation_defined.md row 24) and the power-on contents of external RAM or the contents of external ROM
above (70_reset_and_hazards.md rule R410). An unknown constant per address (log entry 4). -/
opaque Config.initialByte : Nat → Byte

/-- `IRAM_TOP`, the highest implemented internal-RAM address (10_state.md rule R29): &5F, the default, or &7F,
"the only other sensible value" (92_eei_decisions.md D4). -/
inductive IramTop where
  | at5F
  | at7F
deriving DecidableEq, Repr

/-- What `MEMMAP` places in a region of the external bus (20_memory.md rules R63 and R64). -/
inductive RegionKind where
  | ram
  | rom
  | device
deriving DecidableEq, Repr

/-- One region of `MEMMAP`: `size` addresses from `base`. -/
structure Region where
  base : Nat
  size : Nat
  kind : RegionKind
deriving DecidableEq, Repr

/-- The parameters of 00_scope.md rule R6 that a step reads. `INTROM` is not among them: its known bytes stand in
memory below &2000, its unknown ones are `Config.initialByte`. -/
structure Platform where
  /-- `IRAM_TOP` (R29) -/
  iramTop : IramTop
  /-- `BCDW_Q_EXTRA` is 1 (43_block_bcd.md rule R283) -/
  bcdwQExtra : Bool
  /-- `MEMMAP`: where an address is in several regions the first one counts; an address in none holds nothing -/
  memmap : List Region
deriving DecidableEq, Repr

/-- The platform of a machine right after reset: platform T of 95_test_vectors.md Part A, with `IRAM_TOP` at its
default and `BCDW_Q_EXTRA` following the formula (DESIGN CHOICE, log entry 5). -/
def Platform.atReset : Platform :=
  { iramTop := .at5F
    bcdwQExtra := false
    memmap := [{ base := 0x2000, size := 0x6000, kind := .ram }] }

end Sys2Proof
end

