-- ==== Sys2Proof/Machine/State.lean ====
section
/-! DEFINITION. The state of the machine (10_state.md rule R20), the reasons a step can stop, and the state right
after reset. Plain data throughout. -/

namespace Sys2Proof.Machine

/-- The cells of memory something has placed or written, as address and byte pairs, addresses strictly rising
(20_memory.md rule R60: the 16-bit program and data space; log entry 4). -/
abbrev Memory := List Host.Cell

/-- The two ends of execution an OUTC brings about (60_exceptions.md rule R381). -/
inductive StopReason where
  /-- OUTC put out a byte with bit 3 (OFF) set -/
  | powerOff
  /-- OUTC put out a byte with bit 3 clear and bit 2 (HLT) set -/
  | clockHalted
deriving DecidableEq, Repr

/-- `status` of 10_state.md rule R42. The stops that leave no state behind (`raise` of the three refusals of rule
R381) are outcomes of the step instead, see `Fault`. -/
inductive Status where
  | running
  | returned
  | stopped (reason : StopReason)
deriving DecidableEq, Repr

/-- The four output ports (45_io_timing_misc.md rule R340). -/
inductive OutPort where
  | ia
  | ib
  | f0
  | c
deriving DecidableEq, Repr

/-- The two ports that can be read (45_io_timing_misc.md rule R340). -/
inductive InPort where
  | ia
  | ib
deriving DecidableEq, Repr

/-- What `PORT_ENV` is told (45_io_timing_misc.md rule R340): a byte driven on a port, or a byte written to a
device region of the external bus (20_memory.md rule R64). -/
inductive OutEvent where
  | port (p : OutPort) (v : Byte)
  | device (a : Word) (v : Byte)
deriving DecidableEq, Repr

/-- The state of 10_state.md rule R20. -/
structure State where
  /-- internal RAM: registers I to N at &00 to &0B, stack, port bytes at &5C to &5F (R21, R22, R28); the cells above
  `IRAM_TOP` exist in the list only (R29) -/
  iram : Vector Byte 128
  /-- P (R30) -/
  p : Ptr
  /-- Q (R31) -/
  q : Ptr
  /-- R, the stack pointer (R32) -/
  r : Ptr
  /-- PC (R33) -/
  pc : Word
  /-- DP (R34) -/
  dp : Word
  /-- the carry flag (R35) -/
  c : Bool
  /-- the zero flag (R35) -/
  z : Bool
  /-- the hidden loop register (R37) -/
  d : Byte
  /-- the hidden table-jump count; `none` is the spec's *unset* (R38) -/
  tj : Option Byte
  /-- the byte last driven on port IA (R39) -/
  outIA : Byte
  /-- the byte last driven on port IB (R39) -/
  outIB : Byte
  /-- the byte last driven on port F0, of which bits 4..0 have lines (R39) -/
  outF0 : Byte
  /-- the byte last driven on the control port (R39, R40) -/
  outC : Byte
  /-- the known bytes of internal ROM, external ROM and external RAM (20_memory.md rules R60 to R64) -/
  mem : Memory
  /-- R42 -/
  status : Status
  /-- what the next samples of port IA's pins will give; past its end a sample is a draw (R39) -/
  inIA : List Byte
  /-- the same for port IB (R39) -/
  inIB : List Byte
  /-- the same for the TEST signals (R41) -/
  inTest : List Byte
  /-- everything put out so far, oldest first (70_reset_and_hazards.md rule R415) -/
  outputs : List OutEvent
  /-- the model's own: the value R had when the host started this run (R414); `none` when no host has -/
  hostR : Option Ptr
  /-- the model's own: how many values have been drawn from the constants of Config.lean -/
  draws : Nat
  /-- the parameters of 00_scope.md rule R6 -/
  platform : Platform
deriving DecidableEq, Repr

/-- Why a step stops without a next state. -/
inductive Fault where
  /-- `UndefinedOpcode` (60_exceptions.md rule R381): raised by WRIT and by the 28 first bytes without a description
  (45_io_timing_misc.md rules R352 and R353). Safe: the model claims nothing of what follows. -/
  | undefinedOpcode (byte : Byte)
  /-- `UnimplementedIRAM` (10_state.md rule R29): raised by any access of internal RAM above `IRAM_TOP`. Safe. -/
  | unimplementedIram (addr : Ptr)
  /-- `TableJumpUnprepared` (44_control_flow.md rule R324): raised by DTJ while TJ is unset. Safe. -/
  | tableJumpUnprepared (pc : Word)
  /-- Raised by the step of a state whose status is not `running`: "Only Running states step" (10_state.md rule R42).
  Safe. -/
  | notRunning (status : Status)
deriving DecidableEq, Repr

/-- Why the model gives an instruction no meaning. -/
inductive Refusal where
  /-- An instruction whose meaning has not been written; every instruction of the table has one, so nothing raises
  it. Safe. -/
  | notModelled (mnemonic : String)
deriving DecidableEq, Repr

/-- The outcome of a step of this machine. -/
abbrev Result := Host.Outcome State Fault Refusal

/-- The machine right after reset (70_reset_and_hazards.md rule R410, which states `status` and TJ and no other
value). Every other value is named here (DESIGN CHOICE, log entry 3): zero, but R, which is the empty stack's &5C
of 10_state.md rule R32. -/
def State.reset : State :=
  { iram := Vector.replicate 128 0
    p := 0
    q := 0
    r := 0x5C
    pc := 0
    dp := 0
    c := false
    z := false
    d := 0
    tj := none
    outIA := 0
    outIB := 0
    outF0 := 0
    outC := 0
    mem := []
    status := .running
    inIA := []
    inIB := []
    inTest := []
    outputs := []
    hostR := none
    draws := 0
    platform := Platform.atReset }

end Sys2Proof.Machine
end

