-- ==== Sys2Proof/Machine/Ops.lean ====
section
/-! DEFINITION. The named operations over memory, internal RAM, the draws and the ports: the primitives of
00_scope.md rule R11. Every meaning reads and writes the state through them. -/

namespace Sys2Proof.Machine

/-! ### Stopping -/

/-- `raise` of 00_scope.md rule R11: the model ends the run with a named outcome. The machine itself has no
exception to take and none to return from (60_exceptions.md rules R380, R384, R385). -/
def raise (f : Fault) : Result := .fault f

/-- The outcome of an instruction whose pseudocode reached its end, or raised on the way: the first line that raises
wins (60_exceptions.md rule R383). -/
def outcome : Except Fault State → Result
  | .ok s => .next s
  | .error f => raise f

/-! ### Memory cells -/

/-- The byte a cell list holds at an address, `none` where it lists none. -/
def Memory.lookup : Memory → Nat → Option Byte
  | [], _ => none
  | (k, v) :: m, a => if k = a then some v else Memory.lookup m a

/-- The cell list with one byte stored, its addresses still strictly rising. -/
def Memory.write : Memory → Nat → Byte → Memory
  | [], a, v => [(a, v)]
  | (k, w) :: m, a, v =>
    if a < k then (a, v) :: (k, w) :: m
    else if a = k then (a, v) :: m
    else (k, w) :: Memory.write m a v

/-- The canonical form: addresses strictly rising and inside the 16-bit space (R60). A cell is listed exactly when
something has stored a byte there, so no cell can equal what an unlisted address reads as: nothing. -/
abbrev Memory.wf (m : Memory) : Prop :=
  m.Pairwise (fun x y => x.1 < y.1) ∧ ∀ cell ∈ m, cell.1 < 0x10000

/-! ### Draws -/

/-- `any(8)` of R11: a fresh byte. -/
def State.drawByte (s : State) : Byte × State :=
  (Config.anyByte s.draws, { s with draws := s.draws + 1 })

/-- `any(7)` of R11: a fresh pointer value. -/
def State.drawPtr (s : State) : Ptr × State :=
  (Config.anyPtr s.draws, { s with draws := s.draws + 1 })

/-- `any(1)` of R11: a fresh flag. -/
def State.drawFlag (s : State) : Bool × State :=
  (Config.anyFlag s.draws, { s with draws := s.draws + 1 })

/-! ### Internal RAM -/

/-- The highest address `IRAM_TOP` names (10_state.md rule R29). -/
def topAddress : IramTop → Ptr
  | .at5F => 0x5F
  | .at7F => 0x7F

/-- Internal-RAM address `a` exists on this platform (R29). -/
def State.implemented (s : State) (a : Ptr) : Bool := decide (a ≤ topAddress s.platform.iramTop)

/-- The cell of internal RAM at `a`, whether or not it exists. -/
def State.iramGet (s : State) (a : Ptr) : Byte := s.iram[a.toNat]'a.isLt

/-- The state with the cell of internal RAM at `a` set, whether or not it exists. -/
def State.iramSet (s : State) (a : Ptr) (v : Byte) : State :=
  { s with iram := s.iram.set a.toNat v a.isLt }

/-- `IRAM[a]` as a source (20_memory.md rule R61): above `IRAM_TOP` it raises `UnimplementedIRAM`. -/
def State.readIram (s : State) (a : Ptr) : Except Fault Byte :=
  if s.implemented a then .ok (s.iramGet a) else .error (.unimplementedIram a)

/-- `IRAM[a] <- v` (20_memory.md rule R61): above `IRAM_TOP` it raises `UnimplementedIRAM`. Writing a port byte
drives no port (10_state.md rule R28). -/
def State.writeIram (s : State) (a : Ptr) (v : Byte) : Except Fault State :=
  if s.implemented a then .ok (s.iramSet a v) else .error (.unimplementedIram a)

/-! ### The 16-bit spaces -/

/-- What answers at a 16-bit address (20_memory.md rules R62 to R64). -/
inductive Backing where
  | internalRom
  | ram
  | rom
  | device
  | nothing
deriving DecidableEq, Repr

/-- A region of `MEMMAP` covers an address. -/
def regionCovers (g : Region) (a : Word) : Bool :=
  decide (g.base ≤ a.toNat) && decide (a.toNat < g.base + g.size)

/-- The region kind as what answers there. -/
def backingOfKind : RegionKind → Backing
  | .ram => .ram
  | .rom => .rom
  | .device => .device

/-- What answers at address `a`: the internal ROM below &2000 (20_memory.md rule R74), above it what `MEMMAP`
places there. -/
def State.backing (s : State) (a : Word) : Backing :=
  if a < 0x2000 then .internalRom
  else match s.platform.memmap.find? (regionCovers · a) with
    | some g => backingOfKind g.kind
    | none => .nothing

/-- The byte memory holds at `a`: the one last stored, else the unknown one it has held from the start. -/
def State.storedByte (s : State) (a : Word) : Byte :=
  (s.mem.lookup a.toNat).getD (Config.initialByte a.toNat)

/-- The state with a byte stored at `a`, whatever answers there. -/
def State.storeByte (s : State) (a : Word) (v : Byte) : State :=
  { s with mem := s.mem.write a.toNat v }

/-- `MemRead(a, 1)` (20_memory.md rules R63 and R65): the internal-ROM window reads as the address's high byte,
RAM and ROM give the byte they hold, a device or nothing gives a fresh draw. -/
def State.memRead (s : State) (a : Word) : Byte × State :=
  match s.backing a with
  | .internalRom => (hiByte a, s)
  | .ram => (s.storedByte a, s)
  | .rom => (s.storedByte a, s)
  | .device => s.drawByte
  | .nothing => s.drawByte

/-- `CodeRead(a)` (20_memory.md rule R62): as `MemRead`, but the internal ROM is seen. -/
def State.codeRead (s : State) (a : Word) : Byte × State :=
  match s.backing a with
  | .internalRom => (s.storedByte a, s)
  | .ram => (s.storedByte a, s)
  | .rom => (s.storedByte a, s)
  | .device => s.drawByte
  | .nothing => s.drawByte

/-- `MemWrite(a, 1, v)` (20_memory.md rule R64): RAM stores the byte, a device is handed it, and a write anywhere
else has no effect. -/
def State.memWrite (s : State) (a : Word) (v : Byte) : State :=
  match s.backing a with
  | .internalRom => s
  | .ram => s.storeByte a v
  | .rom => s
  | .device => { s with outputs := s.outputs ++ [OutEvent.device a v] }
  | .nothing => s

/-! ### Registers outside internal RAM -/

/-- The default next pc, `pc + length` modulo 65536 (10_state.md rule R33). -/
def State.advance (s : State) (length : Word) : State := { s with pc := s.pc + length }

/-- Both flags written. -/
def State.setFlags (s : State) (c z : Bool) : State := { s with c := c, z := z }

/-- A 16-bit value pushed as CALL, CAL and PTJ do (44_control_flow.md rule R320): high byte at `R - 1`, low byte at
`R - 2`, which R then names. -/
def State.pushWord (s : State) (w : Word) : Except Fault State := do
  let s ← s.writeIram (s.r - 1) (hiByte w)
  let s ← s.writeIram (s.r - 2) (loByte w)
  .ok { s with r := s.r - 2 }

/-! ### Ports -/

/-- `PortOut(p, v)` (45_io_timing_misc.md rule R340): the port's latch takes the byte and the environment is told. -/
def State.portOut (s : State) (p : OutPort) (v : Byte) : State :=
  let told := { s with outputs := s.outputs ++ [OutEvent.port p v] }
  match p with
  | .ia => { told with outIA := v }
  | .ib => { told with outIB := v }
  | .f0 => { told with outF0 := v }
  | .c => { told with outC := v }

/-- `PortIn(p)` (45_io_timing_misc.md rule R340): the next value the environment supplies, or a fresh draw. -/
def State.portIn (s : State) (p : InPort) : Byte × State :=
  match p with
  | .ia =>
    match s.inIA with
    | [] => s.drawByte
    | v :: rest => (v, { s with inIA := rest })
  | .ib =>
    match s.inIB with
    | [] => s.drawByte
    | v :: rest => (v, { s with inIB := rest })

/-- The mask of the five named TEST signals: XIN, RST, KON, CT2, CT1 in bits 7, 6, 3, 1, 0 (10_state.md rule R41). -/
def namedSignals : Byte := 0xCB

/-- What the environment supplies for the TEST signals, or a fresh draw (10_state.md rule R41). -/
def State.sampleTest (s : State) : Byte × State :=
  match s.inTest with
  | [] => s.drawByte
  | v :: rest => (v, { s with inTest := rest })

/-- `TestIn()` (10_state.md rule R41): the named signals as sampled, and the three NC bits a fresh draw each time
(92_eei_decisions.md D18). -/
def State.testIn (s : State) : Byte × State :=
  let sampled := s.sampleTest
  let nc := sampled.2.drawByte
  ((sampled.1 &&& namedSignals) ||| (nc.1 &&& ~~~namedSignals), nc.2)

end Sys2Proof.Machine
end

