-- ==== Sys2Proof/Machine/Operands.lean ====
section
/-! DEFINITION. The operand forms (40_load_transfer.md rule R120): the registers named by an opcode, their 16-bit
pairs, the bytes P, Q and R point to, the byte DP points to, and the targets of jumps. An immediate operand is the
instruction's own field. -/

namespace Sys2Proof.Machine

/-- The twelve registers in internal RAM (10_state.md rule R22). -/
inductive Reg where
  | i
  | j
  | a
  | b
  | xl
  | xh
  | yl
  | yh
  | k
  | l
  | m
  | n
deriving DecidableEq, Repr

/-- The internal-RAM address of a register (R22). -/
def regAddr : Reg → Ptr
  | .i => 0x00
  | .j => 0x01
  | .a => 0x02
  | .b => 0x03
  | .xl => 0x04
  | .xh => 0x05
  | .yl => 0x06
  | .yh => 0x07
  | .k => 0x08
  | .l => 0x09
  | .m => 0x0A
  | .n => 0x0B

/-- A register read by name: the same byte `IRAM[a]` is (R22); every `IRAM_TOP` is above the registers. -/
def State.reg (s : State) (r : Reg) : Byte := s.iramGet (regAddr r)

/-- A register written by name. -/
def State.setReg (s : State) (r : Reg) (v : Byte) : State := s.iramSet (regAddr r) v

/-- A 16-bit view of two registers (R25, 20_memory.md rule R67). -/
def State.pair (s : State) (hi lo : Reg) : Word := joinBytes (s.reg hi) (s.reg lo)

/-- A 16-bit view written, low byte first. -/
def State.setPair (s : State) (hi lo : Reg) (w : Word) : State :=
  (s.setReg lo (loByte w)).setReg hi (hiByte w)

/-- X = XH:XL (R25). -/
def State.x (s : State) : Word := s.pair .xh .xl

/-- Y = YH:YL (R25). -/
def State.y (s : State) : Word := s.pair .yh .yl

/-- BA = B:A, B the high byte (R24). -/
def State.ba (s : State) : Word := s.pair .b .a

/-- `(P)` as a source. -/
def State.atP (s : State) : Except Fault Byte := s.readIram s.p

/-- `(P)` as a destination. -/
def State.setAtP (s : State) (v : Byte) : Except Fault State := s.writeIram s.p v

/-- The operand of ADB and SBB, `IRAM[P+1]:IRAM[P]` (41_arithmetic_logic.md rule R180): the low byte is read first. -/
def State.wordAtP (s : State) : Except Fault Word := do
  let lo ← s.readIram s.p
  let hi ← s.readIram (s.p + 1)
  .ok (joinBytes hi lo)

/-- The same operand written, low byte first, and P left at the high byte (R180). -/
def State.setWordAtP (s : State) (w : Word) : Except Fault State := do
  let s ← s.writeIram s.p (loByte w)
  let s ← s.writeIram (s.p + 1) (hiByte w)
  .ok { s with p := s.p + 1 }

/-- `pc + 1 + n`, the target of a forward relative jump (44_control_flow.md rule R300). -/
def forwardTarget (pc : Word) (n : Byte) : Word := pc + 1 + n.setWidth 16

/-- `pc + 1 - n`, the target of a backward relative jump (R300). -/
def backwardTarget (pc : Word) (n : Byte) : Word := pc + 1 - n.setWidth 16

/-- A jump to `target` if `taken`, else to the next instruction, `length` bytes on (R300). -/
def State.jumpIf (s : State) (taken : Bool) (target length : Word) : State :=
  if taken then { s with pc := target } else s.advance length

end Sys2Proof.Machine
end

