-- ==== Sys2Proof/Machine/Arith.lean ====
section
/-! DEFINITION. Binary arithmetic, logic, compares, shifts and flag instructions (41_arithmetic_logic.md). A flag a
meaning does not write keeps its value. -/

namespace Sys2Proof.Machine

/-- `(P) op y -> (P)` with C and Z (R172 to R175, R178, R179). -/
def State.arithAtP (s : State) (op : Byte → Byte → Bool → Alu8) (y : Byte) (cin : Bool) (length : Word) : Result :=
  outcome do
    let x ← s.atP
    let t ← s.setAtP (op x y cin).value
    .ok ((t.setFlags (op x y cin).carry (op x y cin).zero).advance length)

/-- `A op n -> A` with C and Z (R176, R177). -/
def State.arithA (s : State) (op : Byte → Byte → Bool → Alu8) (n : Byte) : Result :=
  let res := op (s.reg .a) n false
  .next (((s.setReg .a res.value).setFlags res.carry res.zero).advance 2)

/-- `(P) op y -> (P)` with Z only (R182, R183, R186, R187). -/
def State.logicAtP (s : State) (op : Byte → Byte → Byte) (y : Byte) (length : Word) : Result :=
  outcome do
    let x ← s.atP
    let t ← s.setAtP (op x y)
    .ok ({ t with z := isZero (op x y) }.advance length)

/-- `(P) AND y -> Z` (R184, R188). -/
def State.testAtP (s : State) (y : Byte) (length : Word) : Result :=
  outcome do
    let x ← s.atP
    .ok ({ s with z := isZero (x &&& y) }.advance length)

/-- `(P) - y` for its flags only (R185, R189). -/
def State.compareAtP (s : State) (y : Byte) (length : Word) : Result :=
  outcome do
    let x ← s.atP
    .ok ((s.setFlags (sub8 x y false).carry (sub8 x y false).zero).advance length)

/-- `A op n -> A` with Z only (R190, R191). -/
def State.logicA (s : State) (op : Byte → Byte → Byte) (n : Byte) : Result :=
  .next ({ s.setReg .a (op (s.reg .a) n) with z := isZero (op (s.reg .a) n) }.advance 2)

/-- `IRAM[R-1] <- any(8)`: the byte under the stack top that ANID, ORID and TSID use (R194 to R196). -/
def State.scratchUnderStack (s : State) : Except Fault State :=
  s.drawByte.2.writeIram (s.r - 1) s.drawByte.1

/-- `(DP) op n -> (DP)` with Z only (R194, R195). -/
def State.logicAtDp (s : State) (op : Byte → Byte → Byte) (n : Byte) : Result :=
  outcome do
    let x := s.memRead s.dp
    let v := op x.1 n
    let t ← { x.2.memWrite s.dp v with z := isZero v }.scratchUnderStack
    .ok (t.advance 2)

/-- `ADM`: `IRAM[P] <- add8(IRAM[P], A, 0)` (R172). -/
def execAdm (s : State) : Result := s.arithAtP add8 (s.reg .a) false 1

/-- `SBM`: `IRAM[P] <- sub8(IRAM[P], A, 0)` (R173). -/
def execSbm (s : State) : Result := s.arithAtP sub8 (s.reg .a) false 1

/-- `ADCM`: `IRAM[P] <- add8(IRAM[P], A, C)` (R174). -/
def execAdcm (s : State) : Result := s.arithAtP add8 (s.reg .a) s.c 1

/-- `SBCM`: `IRAM[P] <- sub8(IRAM[P], A, C)` (R175). -/
def execSbcm (s : State) : Result := s.arithAtP sub8 (s.reg .a) s.c 1

/-- `ADIA n`: `A <- add8(A, op1, 0)` (R176). -/
def execAdia (n : Byte) (s : State) : Result := s.arithA add8 n

/-- `SBIA n`: `A <- sub8(A, op1, 0)` (R177). -/
def execSbia (n : Byte) (s : State) : Result := s.arithA sub8 n

/-- `ADIM n`: `IRAM[P] <- add8(IRAM[P], op1, 0)` (R178). -/
def execAdim (n : Byte) (s : State) : Result := s.arithAtP add8 n false 2

/-- `SBIM n`: `IRAM[P] <- sub8(IRAM[P], op1, 0)` (R179). -/
def execSbim (n : Byte) (s : State) : Result := s.arithAtP sub8 n false 2

/-- `ADB`: `IRAM[P+1]:IRAM[P] <- IRAM[P+1]:IRAM[P] + B:A`, P left at the high byte (R180). -/
def execAdb (s : State) : Result := outcome do
  let x ← s.wordAtP
  let res := add16 x s.ba
  let t ← s.setWordAtP res.value
  .ok ((t.setFlags res.carry res.zero).advance 1)

/-- `SBB`: `IRAM[P+1]:IRAM[P] <- IRAM[P+1]:IRAM[P] - B:A`, P left at the high byte (R181). -/
def execSbb (s : State) : Result := outcome do
  let x ← s.wordAtP
  let res := sub16 x s.ba
  let t ← s.setWordAtP res.value
  .ok ((t.setFlags res.carry res.zero).advance 1)

/-- `ANMA`: `IRAM[P] <- IRAM[P] AND A` (R182). -/
def execAnma (s : State) : Result := s.logicAtP (· &&& ·) (s.reg .a) 1

/-- `ORMA`: `IRAM[P] <- IRAM[P] OR A` (R183). -/
def execOrma (s : State) : Result := s.logicAtP (· ||| ·) (s.reg .a) 1

/-- `TSMA`: `Z <- ((IRAM[P] AND A) = 0)` (R184). -/
def execTsma (s : State) : Result := s.testAtP (s.reg .a) 1

/-- `CPMA`: `sub8(IRAM[P], A, 0)` for its flags (R185). -/
def execCpma (s : State) : Result := s.compareAtP (s.reg .a) 1

/-- `ANIM n`: `IRAM[P] <- IRAM[P] AND op1` (R186). -/
def execAnim (n : Byte) (s : State) : Result := s.logicAtP (· &&& ·) n 2

/-- `ORIM n`: `IRAM[P] <- IRAM[P] OR op1` (R187). -/
def execOrim (n : Byte) (s : State) : Result := s.logicAtP (· ||| ·) n 2

/-- `TSIM n`: `Z <- ((IRAM[P] AND op1) = 0)` (R188). -/
def execTsim (n : Byte) (s : State) : Result := s.testAtP n 2

/-- `CPIM n`: `sub8(IRAM[P], op1, 0)` for its flags (R189). -/
def execCpim (n : Byte) (s : State) : Result := s.compareAtP n 2

/-- `ANIA n`: `A <- A AND op1` (R190). -/
def execAnia (n : Byte) (s : State) : Result := s.logicA (· &&& ·) n

/-- `ORIA n`: `A <- A OR op1` (R191). -/
def execOria (n : Byte) (s : State) : Result := s.logicA (· ||| ·) n

/-- `TSIA n`: `Z <- ((A AND op1) = 0)` (R192). -/
def execTsia (n : Byte) (s : State) : Result := .next ({ s with z := isZero (s.reg .a &&& n) }.advance 2)

/-- `CPIA n`: `sub8(A, op1, 0)` for its flags (R193). -/
def execCpia (n : Byte) (s : State) : Result :=
  .next ((s.setFlags (sub8 (s.reg .a) n false).carry (sub8 (s.reg .a) n false).zero).advance 2)

/-- `ANID n`: `(DP) AND op1 -> (DP)` (R194). -/
def execAnid (n : Byte) (s : State) : Result := s.logicAtDp (· &&& ·) n

/-- `ORID n`: `(DP) OR op1 -> (DP)` (R195). -/
def execOrid (n : Byte) (s : State) : Result := s.logicAtDp (· ||| ·) n

/-- `TSID n`: `Z <- ((MemRead(DP,1) AND op1) = 0)`, no external write (R196). -/
def execTsid (n : Byte) (s : State) : Result := outcome do
  let x := s.memRead s.dp
  let t ← { x.2 with z := isZero (x.1 &&& n) }.scratchUnderStack
  .ok (t.advance 2)

/-- `SL`: A rotated left through carry, Z from A (R197). -/
def execSl (s : State) : Result :=
  let res := rotateLeft (s.reg .a) s.c
  .next (((s.setReg .a res.value).setFlags res.carry res.zero).advance 1)

/-- `SR`: A rotated right through carry, Z not written (R198). -/
def execSr (s : State) : Result :=
  let res := rotateRight (s.reg .a) s.c
  .next ({ s.setReg .a res.value with c := res.carry }.advance 1)

/-- `SC`: `C <- 1; Z <- 1` (R199). -/
def execSc (s : State) : Result := .next ((s.setFlags true true).advance 1)

/-- `RC`: `C <- 0; Z <- 1` (R200). -/
def execRc (s : State) : Result := .next ((s.setFlags false true).advance 1)

end Sys2Proof.Machine
end

