-- ==== Sys2Proof/Machine/Block.lean ====
section
/-! DEFINITION. Block moves, exchanges, fills and DATA (43_block_bcd.md rules R260 to R271): loops run by the hidden
counter d. -/

namespace Sys2Proof.Machine

/-- A body run `n + 1` times, stopping where it raises. -/
def repeatBody {σ : Type} (body : σ → Except Fault σ) : Nat → σ → Except Fault σ
  | 0, x => body x
  | n + 1, x => body x >>= repeatBody body n

/-- `d <- (d - 1) mod 256` at the end of an iteration (R260). -/
def State.countDown (s : State) : State := { s with d := s.d - 1 }

/-- The block loop (R260): d takes a copy of the count register, and the body runs once more than that copy says,
d counted down after each time until it is &FF. -/
def State.blockLoop (s : State) (count : Byte) (body : State → Except Fault State) : Except Fault State :=
  repeatBody (fun t => do let u ← body t; .ok u.countDown) count.toNat { s with d := count }

/-- A block instruction: the loop, then the next instruction. -/
def State.block (s : State) (count : Byte) (body : State → Except Fault State) : Result :=
  outcome do
    let t ← s.blockLoop count body
    .ok (t.advance 1)

/-- `IRAM[P] <- IRAM[Q]; P <- P+1; Q <- Q+1` (R261). -/
def moveByte (s : State) : Except Fault State := do
  let v ← s.readIram s.q
  let t ← s.setAtP v
  .ok { t with p := t.p + 1, q := t.q + 1 }

/-- `t <- IRAM[P]; IRAM[P] <- IRAM[Q]; IRAM[Q] <- t; P <- P+1; Q <- Q+1` (R263). -/
def exchangeByte (s : State) : Except Fault State := do
  let x ← s.atP
  let y ← s.readIram s.q
  let t ← s.setAtP y
  let t ← t.writeIram t.q x
  .ok { t with p := t.p + 1, q := t.q + 1 }

/-- `IRAM[P] <- MemRead(DP,1); P <- P+1; DP <- DP+1` (R265). -/
def moveExternalByte (s : State) : Except Fault State := do
  let v := s.memRead s.dp
  let t ← v.2.setAtP v.1
  .ok { t with p := t.p + 1, dp := t.dp + 1 }

/-- `t <- MemRead(DP,1); MemWrite(DP,1,IRAM[P]); IRAM[P] <- t; P <- P+1; DP <- DP+1` (R267). -/
def exchangeExternalByte (s : State) : Except Fault State := do
  let v := s.memRead s.dp
  let x ← v.2.atP
  let t ← (v.2.memWrite s.dp x).setAtP v.1
  .ok { t with p := t.p + 1, dp := t.dp + 1 }

/-- `IRAM[P] <- A; P <- P+1` (R269). -/
def fillByte (s : State) : Except Fault State := do
  let t ← s.setAtP (s.reg .a)
  .ok { t with p := t.p + 1 }

/-- `MemWrite(DP,1,A); DP <- DP+1` (R270). -/
def fillExternalByte (s : State) : Except Fault State :=
  let t := s.memWrite s.dp (s.reg .a)
  .ok { t with dp := t.dp + 1 }

/-- `IRAM[P] <- CodeRead(B:A); P <- P+1; B:A <- B:A + 1`, the pair read again after the store (R271). -/
def copyCodeByte (s : State) : Except Fault State := do
  let v := s.codeRead s.ba
  let t ← v.2.setAtP v.1
  let t := { t with p := t.p + 1 }
  .ok (t.setPair .b .a (t.ba + 1))

/-- `MVW`: moves I + 1 bytes from Q up to P up (R261). -/
def execMvw (s : State) : Result := s.block (s.reg .i) moveByte

/-- `MVB`: as MVW with J (R262). -/
def execMvb (s : State) : Result := s.block (s.reg .j) moveByte

/-- `EXW`: exchanges I + 1 bytes at P up and Q up (R263). -/
def execExw (s : State) : Result := s.block (s.reg .i) exchangeByte

/-- `EXB`: as EXW with J (R264). -/
def execExb (s : State) : Result := s.block (s.reg .j) exchangeByte

/-- `MVWD`: moves I + 1 bytes from DP up to P up (R265). -/
def execMvwd (s : State) : Result := s.block (s.reg .i) moveExternalByte

/-- `MVBD`: as MVWD with J (R266). -/
def execMvbd (s : State) : Result := s.block (s.reg .j) moveExternalByte

/-- `EXWD`: exchanges I + 1 bytes at P up and DP up (R267). -/
def execExwd (s : State) : Result := s.block (s.reg .i) exchangeExternalByte

/-- `EXBD`: as EXWD with J; Q is not touched (R268). -/
def execExbd (s : State) : Result := s.block (s.reg .j) exchangeExternalByte

/-- `FILM`: fills I + 1 bytes of internal RAM with A (R269). -/
def execFilm (s : State) : Result := s.block (s.reg .i) fillByte

/-- `FILD`: fills I + 1 external bytes with A (R270). -/
def execFild (s : State) : Result := s.block (s.reg .i) fillExternalByte

/-- `DATA`: copies I + 1 bytes of program space from B:A up to P up; C and Z are left open (R271). -/
def execData (s : State) : Result := outcome do
  let t ← s.blockLoop (s.reg .i) copyCodeByte
  let c := t.drawFlag
  let z := c.2.drawFlag
  .ok ((z.2.setFlags c.1 z.1).advance 1)

end Sys2Proof.Machine
end

