-- ==== Sys2Proof/Machine/Bcd.lean ====
section
/-! DEFINITION. BCD string arithmetic and digit shifts (43_block_bcd.md rules R280 to R286). -/

namespace Sys2Proof.Machine

/-- What a BCD string instruction carries from byte to byte: the carry, whether every byte written so far is zero,
and, for ADN and SBN, the operand byte still to be taken (R281). -/
structure BcdRun where
  st : State
  carry : Bool
  allZero : Bool
  addend : Byte
deriving DecidableEq, Repr

/-- What a digit shift carries from byte to byte: the digit `t` of R285 and R286. -/
structure DigitRun where
  st : State
  digit : BitVec 4
deriving DecidableEq, Repr

/-- One byte of decimal arithmetic (R280): `op` on decimal digits; any other operand makes the result byte and the
carry fresh draws, in that order. -/
def State.bcdOp (s : State) (op : Byte → Byte → Bool → Byte × Bool) (x y : Byte) (cin : Bool) :
    (Byte × Bool) × State :=
  if isBcd x && isBcd y then (op x y cin, s)
  else
    let v := s.drawByte
    let c := v.2.drawFlag
    ((v.1, c.1), c.2)

/-- `IRAM[P] <- r; if r != 0 then z <- 0` with the carry of the byte. -/
def BcdRun.writeByte (w : BcdRun) (res : (Byte × Bool) × State) : Except Fault BcdRun := do
  let t ← res.2.setAtP res.1.1
  .ok { st := t, carry := res.1.2, allZero := w.allZero && isZero res.1.1, addend := 0 }

/-- The body of ADN and SBN (R281, R282): A takes part in the first byte only. -/
def addendByte (op : Byte → Byte → Bool → Byte × Bool) (w : BcdRun) : Except Fault BcdRun := do
  let x ← w.st.atP
  let u ← w.writeByte (w.st.bcdOp op x w.addend w.carry)
  .ok { u with st := { u.st with p := u.st.p - 1 }.countDown }

/-- The body of ADW and SBW (R283, R284). -/
def stringByte (op : Byte → Byte → Bool → Byte × Bool) (w : BcdRun) : Except Fault BcdRun := do
  let x ← w.st.atP
  let y ← w.st.readIram w.st.q
  let u ← w.writeByte (w.st.bcdOp op x y w.carry)
  .ok { u with st := { u.st with p := u.st.p - 1, q := u.st.q - 1 }.countDown }

/-- A BCD string loop from a carry of 0, I counting (R280). -/
def State.bcdLoop (s : State) (body : BcdRun → Except Fault BcdRun) : Except Fault BcdRun :=
  repeatBody body (s.reg .i).toNat
    { st := { s with d := s.reg .i }, carry := false, allZero := true, addend := s.reg .a }

/-- ADN and SBN: the loop, then C and Z (R281, R282). -/
def State.bcdAddend (s : State) (op : Byte → Byte → Bool → Byte × Bool) : Result := outcome do
  let w ← s.bcdLoop (addendByte op)
  .ok ((w.st.setFlags w.carry w.allZero).advance 1)

/-- `(Q - BCDW_Q_EXTRA) mod 128` (R283). -/
def State.extraQ (s : State) : Ptr := if s.platform.bcdwQExtra then s.q - 1 else s.q

/-- ADW and SBW: the loop, the extra step of Q, then C and Z (R283, R284). -/
def State.bcdString (s : State) (op : Byte → Byte → Bool → Byte × Bool) : Result := outcome do
  let w ← s.bcdLoop (stringByte op)
  .ok (({ w.st with q := w.st.extraQ }.setFlags w.carry w.allZero).advance 1)

/-- `ADN`: adds A to the BCD string whose last byte is at P (R281). -/
def execAdn (s : State) : Result := s.bcdAddend bcdAdd

/-- `SBN`: subtracts A from the BCD string whose last byte is at P (R282). -/
def execSbn (s : State) : Result := s.bcdAddend bcdSub

/-- `ADW`: adds the BCD string at Q to the one at P (R283). -/
def execAdw (s : State) : Result := s.bcdString bcdAdd

/-- `SBW`: subtracts the BCD string at Q from the one at P (R284). -/
def execSbw (s : State) : Result := s.bcdString bcdSub

/-- `b <- IRAM[P]; IRAM[P] <- t : b[7:4]; t <- b[3:0]; P <- P+1` (R285). -/
def shiftRightByte (w : DigitRun) : Except Fault DigitRun := do
  let b ← w.st.atP
  let t ← w.st.setAtP (joinNibbles w.digit (hiNibble b))
  .ok { st := { t with p := t.p + 1 }.countDown, digit := loNibble b }

/-- `b <- IRAM[P]; IRAM[P] <- b[3:0] : t; t <- b[7:4]; P <- P-1` (R286). -/
def shiftLeftByte (w : DigitRun) : Except Fault DigitRun := do
  let b ← w.st.atP
  let t ← w.st.setAtP (joinNibbles (loNibble b) w.digit)
  .ok { st := { t with p := t.p - 1 }.countDown, digit := hiNibble b }

/-- A digit shift of I + 1 bytes, the digit shifted in being 0; no flag is written (R285, R286). -/
def State.digitShift (s : State) (body : DigitRun → Except Fault DigitRun) : Result := outcome do
  let w ← repeatBody body (s.reg .i).toNat { st := { s with d := s.reg .i }, digit := 0 }
  .ok (w.st.advance 1)

/-- `SRW`: shifts a digit string one digit to the right, walking up from P (R285). -/
def execSrw (s : State) : Result := s.digitShift shiftRightByte

/-- `SLW`: shifts a digit string one digit to the left, walking down from P (R286). -/
def execSlw (s : State) : Result := s.digitShift shiftLeftByte

end Sys2Proof.Machine
end

