-- ==== Sys2Proof/Machine/Control.lean ====
section
/-! DEFINITION. Jumps, LOOP, calls, RTN and the table jump (44_control_flow.md). Only LOOP and DTJ write flags
(R300). -/

namespace Sys2Proof.Machine

/-- A relative jump forward: `PC + 1 + n` if taken, else `PC + 2` (R300). -/
def State.jumpForwardIf (s : State) (taken : Bool) (n : Byte) : Result :=
  .next (s.jumpIf taken (forwardTarget s.pc n) 2)

/-- A relative jump backward: `PC + 1 - n` if taken, else `PC + 2` (R300). -/
def State.jumpBackwardIf (s : State) (taken : Bool) (n : Byte) : Result :=
  .next (s.jumpIf taken (backwardTarget s.pc n) 2)

/-- An absolute jump: `nm` if taken, else `PC + 3` (R300). -/
def State.jumpToIf (s : State) (taken : Bool) (nm : Word) : Result := .next (s.jumpIf taken nm 3)

/-- `JRNZP n` (R301). -/
def execJrnzp (n : Byte) (s : State) : Result := s.jumpForwardIf (!s.z) n

/-- `JRNZM n` (R302). -/
def execJrnzm (n : Byte) (s : State) : Result := s.jumpBackwardIf (!s.z) n

/-- `JRNCP n` (R303). -/
def execJrncp (n : Byte) (s : State) : Result := s.jumpForwardIf (!s.c) n

/-- `JRNCM n` (R304). -/
def execJrncm (n : Byte) (s : State) : Result := s.jumpBackwardIf (!s.c) n

/-- `JRP n`: no condition (R305). -/
def execJrp (n : Byte) (s : State) : Result := s.jumpForwardIf true n

/-- `JRM n`: no condition (R306). -/
def execJrm (n : Byte) (s : State) : Result := s.jumpBackwardIf true n

/-- `JRZP n` (R307). -/
def execJrzp (n : Byte) (s : State) : Result := s.jumpForwardIf s.z n

/-- `JRZM n` (R308). -/
def execJrzm (n : Byte) (s : State) : Result := s.jumpBackwardIf s.z n

/-- `JRCP n` (R309). -/
def execJrcp (n : Byte) (s : State) : Result := s.jumpForwardIf s.c n

/-- `JRCM n` (R310). -/
def execJrcm (n : Byte) (s : State) : Result := s.jumpBackwardIf s.c n

/-- `JP nm`: no condition (R311). -/
def execJp (nm : Word) (s : State) : Result := s.jumpToIf true nm

/-- `JPNZ nm` (R312). -/
def execJpnz (nm : Word) (s : State) : Result := s.jumpToIf (!s.z) nm

/-- `JPNC nm` (R313). -/
def execJpnc (nm : Word) (s : State) : Result := s.jumpToIf (!s.c) nm

/-- `JPZ nm` (R314). -/
def execJpz (nm : Word) (s : State) : Result := s.jumpToIf s.z nm

/-- `JPC nm` (R315). -/
def execJpc (nm : Word) (s : State) : Result := s.jumpToIf s.c nm

/-- `LOOP n`: the byte on top of the stack is decremented with C and Z; with C = 0 a backward jump, with C = 1 the
byte is dropped and the next instruction follows (R316). -/
def execLoop (n : Byte) (s : State) : Result := outcome do
  let count ← s.readIram s.r
  let res := sub8 count 1 false
  let t ← s.writeIram s.r res.value
  let t := t.setFlags res.carry res.zero
  .ok (if res.carry then { t with r := t.r + 1 }.advance 2 else { t with pc := backwardTarget t.pc n })

/-- CALL and CAL: the return address pushed, then the jump (R320, R321). -/
def State.callTo (s : State) (target length : Word) : Result := outcome do
  let t ← s.pushWord (s.pc + length)
  .ok { t with pc := target }

/-- `CALL nm` (R320). -/
def execCall (nm : Word) (s : State) : Result := s.callTo nm 3

/-- `CAL ln`: the 13-bit target zero-extended (R321). -/
def execCal (ln : BitVec 13) (s : State) : Result := s.callTo (ln.setWidth 16) 2

/-- The status after an RTN executed with stack pointer `r`: the RTN that pops the address the host pushed ends the
run (70_reset_and_hazards.md rule R415). -/
def State.statusAfterReturn (s : State) (r : Ptr) : Status :=
  if s.hostR = some r then .returned else s.status

/-- `RTN`: `lo <- IRAM[R]; hi <- IRAM[R+1]; R <- R + 2; pc <- hi:lo` (R322). -/
def execRtn (s : State) : Result := outcome do
  let lo ← s.readIram s.r
  let hi ← s.readIram (s.r + 1)
  .ok { s with r := s.r + 2, pc := joinBytes hi lo, status := s.statusAfterReturn s.r }

/-- `PTJ l,nm`: the address nm pushed, the entry count kept in TJ (R323). -/
def execPtj (l : Byte) (nm : Word) (s : State) : Result := outcome do
  let t ← s.pushWord nm
  .ok ({ t with tj := some l }.advance 4)

/-- The search of DTJ's table (R324): `n` entries of three bytes from `a`, tried in order against `v`; the default
address follows the last. The two target bytes are read high byte first. -/
def searchTable (v : Byte) : Nat → Word → State → Word × State
  | 0, a, s =>
    let hi := s.codeRead a
    let lo := hi.2.codeRead (a + 1)
    (joinBytes hi.1 lo.1, lo.2)
  | n + 1, a, s =>
    let key := s.codeRead a
    if key.1 = v then
      let hi := key.2.codeRead (a + 1)
      let lo := hi.2.codeRead (a + 2)
      (joinBytes hi.1 lo.1, lo.2)
    else searchTable v n (a + 3) key.2

/-- `DTJ`: jumps to the entry of the table at pc + 1 whose first byte is A, else to the default; C and Z are left
open; with TJ unset it raises (R324). -/
def execDtj (s : State) : Result :=
  match s.tj with
  | none => raise (.tableJumpUnprepared s.pc)
  | some count =>
    let found := searchTable (s.reg .a) count.toNat (s.pc + 1) s
    let c := found.2.drawFlag
    let z := c.2.drawFlag
    .next { z.2.setFlags c.1 z.1 with pc := found.1 }

end Sys2Proof.Machine
end

