-- ==== Sys2Proof/Machine/IncDec.lean ====
section
/-! DEFINITION. Increments, decrements and the X and Y pointer steps (42_inc_dec_pointer.md). All are one byte
long. -/

namespace Sys2Proof.Machine

/-- INCx and DECx (R220): the named register through `op` with operand 1, C and Z from it, and the register's
address left in Q. -/
def State.countReg (s : State) (r : Reg) (op : Byte → Byte → Bool → Alu8) : Result :=
  let res := op (s.reg r) 1 false
  .next ({ (s.setReg r res.value).setFlags res.carry res.zero with q := regAddr r }.advance 1)

/-- `INCI`: `I + 1 -> I` (R221). -/
def execInci (s : State) : Result := s.countReg .i add8

/-- `DECI`: `I - 1 -> I` (R222). -/
def execDeci (s : State) : Result := s.countReg .i sub8

/-- `INCJ`: `J + 1 -> J` (R223). -/
def execIncj (s : State) : Result := s.countReg .j add8

/-- `DECJ`: `J - 1 -> J` (R224). -/
def execDecj (s : State) : Result := s.countReg .j sub8

/-- `INCA`: `A + 1 -> A` (R225). -/
def execInca (s : State) : Result := s.countReg .a add8

/-- `DECA`: `A - 1 -> A` (R226). -/
def execDeca (s : State) : Result := s.countReg .a sub8

/-- `INCB`: `B + 1 -> B` (R227). -/
def execIncb (s : State) : Result := s.countReg .b add8

/-- `DECB`: `B - 1 -> B` (R228). -/
def execDecb (s : State) : Result := s.countReg .b sub8

/-- `INCK`: `K + 1 -> K` (R229). -/
def execInck (s : State) : Result := s.countReg .k add8

/-- `DECK`: `K - 1 -> K` (R230). -/
def execDeck (s : State) : Result := s.countReg .k sub8

/-- `INCL`: `L + 1 -> L` (R231). -/
def execIncl (s : State) : Result := s.countReg .l add8

/-- `DECL`: `L - 1 -> L` (R232). -/
def execDecl (s : State) : Result := s.countReg .l sub8

/-- `INCM`: `M + 1 -> M` (R233). -/
def execIncm (s : State) : Result := s.countReg .m add8

/-- `DECM`: `M - 1 -> M` (R234). -/
def execDecm (s : State) : Result := s.countReg .m sub8

/-- `INCN`: `N + 1 -> N` (R235). -/
def execIncn (s : State) : Result := s.countReg .n add8

/-- `DECN`: `N - 1 -> N` (R236). -/
def execDecn (s : State) : Result := s.countReg .n sub8

/-- C, Z and Q each a fresh draw, in that order (R237, R238, 92_eei_decisions.md D11). -/
def State.drawFlagsAndQ (s : State) : State :=
  let c := s.drawFlag
  let z := c.2.drawFlag
  let q := z.2.drawPtr
  { q.2 with c := c.1, z := z.1, q := q.1 }

/-- `INCP`: `P <- P + 1`; C, Z and Q are left open (R237). -/
def execIncp (s : State) : Result := .next ({ s with p := s.p + 1 }.drawFlagsAndQ.advance 1)

/-- `DECP`: `P <- P - 1`; C, Z and Q are left open (R238). -/
def execDecp (s : State) : Result := .next ({ s with p := s.p - 1 }.drawFlagsAndQ.advance 1)

/-- A pointer step (R239): the pair takes `w`, DP takes the same value, and Q the address of the pair's high byte. -/
def State.stepPointer (s : State) (hi lo : Reg) (w : Word) : State :=
  { s.setPair hi lo w with dp := w, q := regAddr hi }

/-- `A <- MemRead(DP, 1)` after a pointer step (R244, R245). -/
def State.loadAfterStep (s : State) : State :=
  let v := s.memRead s.dp
  v.2.setReg .a v.1

/-- `IX`: `X <- X + 1; DP <- X` (R240). -/
def execIx (s : State) : Result := .next ((s.stepPointer .xh .xl (s.x + 1)).advance 1)

/-- `DX`: `X <- X - 1; DP <- X` (R241). -/
def execDx (s : State) : Result := .next ((s.stepPointer .xh .xl (s.x - 1)).advance 1)

/-- `IY`: `Y <- Y + 1; DP <- Y` (R242). -/
def execIy (s : State) : Result := .next ((s.stepPointer .yh .yl (s.y + 1)).advance 1)

/-- `DY`: `Y <- Y - 1; DP <- Y` (R243). -/
def execDy (s : State) : Result := .next ((s.stepPointer .yh .yl (s.y - 1)).advance 1)

/-- `IXL`: as IX, then `A <- MemRead(DP, 1)` (R244). -/
def execIxl (s : State) : Result := .next ((s.stepPointer .xh .xl (s.x + 1)).loadAfterStep.advance 1)

/-- `DXL`: as DX, then `A <- MemRead(DP, 1)` (R245). -/
def execDxl (s : State) : Result := .next ((s.stepPointer .xh .xl (s.x - 1)).loadAfterStep.advance 1)

/-- `IYS`: as IY, then `MemWrite(DP, 1, A)` (R246). -/
def execIys (s : State) : Result :=
  .next (((s.stepPointer .yh .yl (s.y + 1)).memWrite (s.y + 1) (s.reg .a)).advance 1)

/-- `DYS`: as DY, then `MemWrite(DP, 1, A)` (R247). -/
def execDys (s : State) : Result :=
  .next (((s.stepPointer .yh .yl (s.y - 1)).memWrite (s.y - 1) (s.reg .a)).advance 1)

end Sys2Proof.Machine
end

