-- ==== Sys2Proof/Machine/Load.lean ====
section
/-! DEFINITION. Loads, stores, moves, exchanges and the stack (40_load_transfer.md). None of these writes a flag
(R120). -/

namespace Sys2Proof.Machine

/-- A register loaded with an immediate, a two-byte instruction. -/
def State.loadImmediate (s : State) (r : Reg) (n : Byte) : Result := .next ((s.setReg r n).advance 2)

/-- `LII n`: `I <- op1` (R121). -/
def execLii (n : Byte) (s : State) : Result := s.loadImmediate .i n

/-- `LIJ n`: `J <- op1` (R122). -/
def execLij (n : Byte) (s : State) : Result := s.loadImmediate .j n

/-- `LIA n`: `A <- op1` (R123). -/
def execLia (n : Byte) (s : State) : Result := s.loadImmediate .a n

/-- `LIB n`: `B <- op1` (R124). -/
def execLib (n : Byte) (s : State) : Result := s.loadImmediate .b n

/-- `LIDP nm`: `DP <- op1:op2` (R125). -/
def execLidp (nm : Word) (s : State) : Result := .next ({ s with dp := nm }.advance 3)

/-- `LIDL n`: `DP <- DP[15:8]:op1` (R126). -/
def execLidl (n : Byte) (s : State) : Result := .next ({ s with dp := joinBytes (hiByte s.dp) n }.advance 2)

/-- `LIP n`: `P <- op1[6:0]` (R127). -/
def execLip (n : Byte) (s : State) : Result := .next ({ s with p := toPtr n }.advance 2)

/-- `LIQ n`: `Q <- op1[6:0]` (R128). -/
def execLiq (n : Byte) (s : State) : Result := .next ({ s with q := toPtr n }.advance 2)

/-- `LP l`: `P <- zext_7(byte0[5:0])` (R129). -/
def execLp (l : BitVec 6) (s : State) : Result := .next ({ s with p := l.setWidth 7 }.advance 1)

/-- `LDP`: `A <- zext_8(P)` (R130). -/
def execLdp (s : State) : Result := .next ((s.setReg .a (ofPtr s.p)).advance 1)

/-- `LDQ`: `A <- zext_8(Q)` (R131). -/
def execLdq (s : State) : Result := .next ((s.setReg .a (ofPtr s.q)).advance 1)

/-- `LDR`: `A <- zext_8(R)` (R132). -/
def execLdr (s : State) : Result := .next ((s.setReg .a (ofPtr s.r)).advance 1)

/-- `RA`: `A <- 0`, Z not written (R133). -/
def execRa (s : State) : Result := .next ((s.setReg .a 0).advance 1)

/-- `STP`: `P <- A[6:0]` (R134). -/
def execStp (s : State) : Result := .next ({ s with p := toPtr (s.reg .a) }.advance 1)

/-- `STQ`: `Q <- A[6:0]` (R135). -/
def execStq (s : State) : Result := .next ({ s with q := toPtr (s.reg .a) }.advance 1)

/-- `STR`: `R <- A[6:0]` (R136). -/
def execStr (s : State) : Result := .next ({ s with r := toPtr (s.reg .a) }.advance 1)

/-- `LDM`: `A <- IRAM[P]` (R137). -/
def execLdm (s : State) : Result := outcome do
  let v ← s.atP
  .ok ((s.setReg .a v).advance 1)

/-- `LDD`: `A <- MemRead(DP, 1)` (R138). -/
def execLdd (s : State) : Result :=
  let v := s.memRead s.dp
  .next ((v.2.setReg .a v.1).advance 1)

/-- `STD`: `MemWrite(DP, 1, A)` (R139). -/
def execStd (s : State) : Result := .next ((s.memWrite s.dp (s.reg .a)).advance 1)

/-- `MVDM`: `MemWrite(DP, 1, IRAM[P])` (R140). -/
def execMvdm (s : State) : Result := outcome do
  let v ← s.atP
  .ok ((s.memWrite s.dp v).advance 1)

/-- `MVMD`: `IRAM[P] <- MemRead(DP, 1)` (R141). -/
def execMvmd (s : State) : Result := outcome do
  let v := s.memRead s.dp
  let s ← v.2.setAtP v.1
  .ok (s.advance 1)

/-- `EXAB`: `t <- A; A <- B; B <- t` (R142). -/
def execExab (s : State) : Result :=
  .next (((s.setReg .a (s.reg .b)).setReg .b (s.reg .a)).advance 1)

/-- `EXAM`: `t <- A; A <- IRAM[P]; IRAM[P] <- t` (R143). -/
def execExam (s : State) : Result := outcome do
  let v ← s.atP
  let t ← (s.setReg .a v).setAtP (s.reg .a)
  .ok (t.advance 1)

/-- `SWP`: `A <- A[3:0]:A[7:4]` (R144). -/
def execSwp (s : State) : Result :=
  .next ((s.setReg .a (joinNibbles (loNibble (s.reg .a)) (hiNibble (s.reg .a)))).advance 1)

/-- `READ`: `A <- CodeRead(pc + 1)`; the byte read is executed next (R145, 70_reset_and_hazards.md rule R423). -/
def execRead (s : State) : Result :=
  let v := s.codeRead (s.pc + 1)
  .next ((v.2.setReg .a v.1).advance 1)

/-- `READM`: `IRAM[P] <- CodeRead(pc + 1)`; the byte read is executed next (R146). -/
def execReadm (s : State) : Result := outcome do
  let v := s.codeRead (s.pc + 1)
  let s ← v.2.setAtP v.1
  .ok (s.advance 1)

/-- `PUSH`: `R <- R - 1; IRAM[R] <- A` (R147). -/
def execPush (s : State) : Result := outcome do
  let t ← { s with r := s.r - 1 }.writeIram (s.r - 1) (s.reg .a)
  .ok (t.advance 1)

/-- `POP`: `A <- IRAM[R]; R <- R + 1` (R148). -/
def execPop (s : State) : Result := outcome do
  let v ← s.readIram s.r
  .ok ({ s.setReg .a v with r := s.r + 1 }.advance 1)

/-- `LEAVE`: `IRAM[R] <- 0` (R149). -/
def execLeave (s : State) : Result := outcome do
  let t ← s.writeIram s.r 0
  .ok (t.advance 1)

end Sys2Proof.Machine
end

