-- ==== Sys2Proof/Machine/PortIO.lean ====
section
/-! DEFINITION. Ports, TEST, no-operations, waits and the first bytes without a description
(45_io_timing_misc.md). -/

namespace Sys2Proof.Machine

/-! ### The control port (10_state.md rule R40) -/

/-- OFF, bit 3: "hors tension". -/
def controlOff (v : Byte) : Bool := v.getLsbD 3

/-- HLT, bit 2: "arrêt horloge". -/
def controlHlt (v : Byte) : Bool := v.getLsbD 2

/-- CL, bit 1: "compteur à 0"; it reaches the environment with the byte (R346). -/
def controlCl (v : Byte) : Bool := v.getLsbD 1

/-- DIS, bit 0: 1 = LCD on. -/
def controlDis (v : Byte) : Bool := v.getLsbD 0

/-- What the XOUT line carries. -/
inductive Xout where
  | low
  | high
  | tone2kHz
  | tone4kHz
  | copyOfXin
deriving DecidableEq, Repr

/-- The line XOUT under the control byte: the table of BZ3 BZ2 BZ1, bits 6 to 4 (R40, 90_conflicts.md C36). -/
def controlXout (v : Byte) : Xout :=
  match v.getLsbD 6, v.getLsbD 5, v.getLsbD 4 with
  | false, false, false => .low
  | false, false, true => .high
  | false, true, false => .tone2kHz
  | false, true, true => .tone4kHz
  | true, false, false => .low
  | true, false, true => .high
  | true, true, _ => .copyOfXin

/-- The line XIN is active under the control byte: BZ3 (R40). -/
def controlXinActive (v : Byte) : Bool := v.getLsbD 6

/-- The five lines of port F0: bits 4..0 of the byte last driven (R345). -/
def State.linesF0 (s : State) : BitVec 5 := s.outF0.extractLsb' 0 5

/-- The status after OUTC has put `v` out: OFF before HLT (R346). -/
def statusAfterControl (status : Status) (v : Byte) : Status :=
  if controlOff v then .stopped .powerOff
  else if controlHlt v then .stopped .clockHalted
  else status

/-! ### Port instructions -/

/-- `A <- PortIn(p); Z <- (A = 0)` (R341, R342). -/
def State.input (s : State) (p : InPort) : Result :=
  let v := s.portIn p
  .next ({ v.2.setReg .a v.1 with z := isZero v.1 }.advance 1)

/-- `INA` (R341). -/
def execIna (s : State) : Result := s.input .ia

/-- `INB` (R342). -/
def execInb (s : State) : Result := s.input .ib

/-- `OUTA`: `PortOut(IA, IRAM[&5C])` (R343). -/
def execOuta (s : State) : Result := outcome do
  let v ← s.readIram 0x5C
  .ok ((s.portOut .ia v).advance 1)

/-- `OUTB`: `PortOut(IB, IRAM[&5D])` (R344). -/
def execOutb (s : State) : Result := outcome do
  let v ← s.readIram 0x5D
  .ok ((s.portOut .ib v).advance 1)

/-- `OUTF`: `PortOut(F0, IRAM[&5E])` (R345). -/
def execOutf (s : State) : Result := outcome do
  let v ← s.readIram 0x5E
  .ok ((s.portOut .f0 v).advance 1)

/-- `OUTC`: `PortOut(C, IRAM[&5F])`, and the run ends if the byte has OFF or HLT set (R346). -/
def execOutc (s : State) : Result := outcome do
  let v ← s.readIram 0x5F
  let t := s.portOut .c v
  .ok ({ t with status := statusAfterControl t.status v }.advance 1)

/-- `TEST n`: `Z <- ((TestIn() AND op1) = 0)` (R347). -/
def execTest (n : Byte) (s : State) : Result :=
  let v := s.testIn
  .next ({ v.2 with z := isZero (v.1 &&& n) }.advance 2)

/-! ### No-operations and waits -/

/-- `NOPW` (R348). -/
def execNopw (s : State) : Result := .next (s.advance 1)

/-- `NOPT` (R349). -/
def execNopt (s : State) : Result := .next (s.advance 1)

/-- `WAIT n`: two bytes, and nothing else but time (R350). -/
def execWait (_n : Byte) (s : State) : Result := .next (s.advance 2)

/-- `WAITI`: d counted from I down to &FF; P and Z are left open (R351). -/
def execWaiti (s : State) : Result :=
  let p := s.drawPtr
  let z := p.2.drawFlag
  .next ({ z.2 with p := p.1, z := z.1, d := 0xFF }.advance 1)

/-! ### First bytes without a description (R352, R353) -/

/-- `WRIT`: `raise UndefinedOpcode(&D3)` (R352). -/
def execWrit (_s : State) : Result := raise (.undefinedOpcode 0xD3)

/-- First byte &16: `raise UndefinedOpcode(&16)` (R353). -/
def execUndefined16 (_s : State) : Result := raise (.undefinedOpcode 0x16)

/-- First byte &17: `raise UndefinedOpcode(&17)` (R353). -/
def execUndefined17 (_s : State) : Result := raise (.undefinedOpcode 0x17)

/-- First byte &2E: `raise UndefinedOpcode(&2E)` (R353). -/
def execUndefined2E (_s : State) : Result := raise (.undefinedOpcode 0x2E)

/-- First byte &33: `raise UndefinedOpcode(&33)` (R353). -/
def execUndefined33 (_s : State) : Result := raise (.undefinedOpcode 0x33)

/-- First byte &36: `raise UndefinedOpcode(&36)` (R353). -/
def execUndefined36 (_s : State) : Result := raise (.undefinedOpcode 0x36)

/-- First byte &3C: `raise UndefinedOpcode(&3C)` (R353). -/
def execUndefined3C (_s : State) : Result := raise (.undefinedOpcode 0x3C)

/-- First byte &3D: `raise UndefinedOpcode(&3D)` (R353). -/
def execUndefined3D (_s : State) : Result := raise (.undefinedOpcode 0x3D)

/-- First byte &3E: `raise UndefinedOpcode(&3E)` (R353). -/
def execUndefined3E (_s : State) : Result := raise (.undefinedOpcode 0x3E)

/-- First byte &3F: `raise UndefinedOpcode(&3F)` (R353). -/
def execUndefined3F (_s : State) : Result := raise (.undefinedOpcode 0x3F)

/-- First byte &5C: `raise UndefinedOpcode(&5C)` (R353). -/
def execUndefined5C (_s : State) : Result := raise (.undefinedOpcode 0x5C)

/-- First byte &5E: `raise UndefinedOpcode(&5E)` (R353). -/
def execUndefined5E (_s : State) : Result := raise (.undefinedOpcode 0x5E)

/-- First byte &68: `raise UndefinedOpcode(&68)` (R353). -/
def execUndefined68 (_s : State) : Result := raise (.undefinedOpcode 0x68)

/-- First byte &6A: `raise UndefinedOpcode(&6A)` (R353). -/
def execUndefined6A (_s : State) : Result := raise (.undefinedOpcode 0x6A)

/-- First byte &6C: `raise UndefinedOpcode(&6C)` (R353). -/
def execUndefined6C (_s : State) : Result := raise (.undefinedOpcode 0x6C)

/-- First byte &6D: `raise UndefinedOpcode(&6D)` (R353). -/
def execUndefined6D (_s : State) : Result := raise (.undefinedOpcode 0x6D)

/-- First byte &6E: `raise UndefinedOpcode(&6E)` (R353). -/
def execUndefined6E (_s : State) : Result := raise (.undefinedOpcode 0x6E)

/-- First byte &6F: `raise UndefinedOpcode(&6F)` (R353). -/
def execUndefined6F (_s : State) : Result := raise (.undefinedOpcode 0x6F)

/-- First byte &72: `raise UndefinedOpcode(&72)` (R353). -/
def execUndefined72 (_s : State) : Result := raise (.undefinedOpcode 0x72)

/-- First byte &73: `raise UndefinedOpcode(&73)` (R353). -/
def execUndefined73 (_s : State) : Result := raise (.undefinedOpcode 0x73)

/-- First byte &76: `raise UndefinedOpcode(&76)` (R353). -/
def execUndefined76 (_s : State) : Result := raise (.undefinedOpcode 0x76)

/-- First byte &77: `raise UndefinedOpcode(&77)` (R353). -/
def execUndefined77 (_s : State) : Result := raise (.undefinedOpcode 0x77)

/-- First byte &7B: `raise UndefinedOpcode(&7B)` (R353). -/
def execUndefined7B (_s : State) : Result := raise (.undefinedOpcode 0x7B)

/-- First byte &CD: `raise UndefinedOpcode(&CD)` (R353). -/
def execUndefinedCD (_s : State) : Result := raise (.undefinedOpcode 0xCD)

/-- First byte &CF: `raise UndefinedOpcode(&CF)` (R353). -/
def execUndefinedCF (_s : State) : Result := raise (.undefinedOpcode 0xCF)

/-- First byte &D7: `raise UndefinedOpcode(&D7)` (R353). -/
def execUndefinedD7 (_s : State) : Result := raise (.undefinedOpcode 0xD7)

/-- First byte &D9: `raise UndefinedOpcode(&D9)` (R353). -/
def execUndefinedD9 (_s : State) : Result := raise (.undefinedOpcode 0xD9)

/-- First byte &DC: `raise UndefinedOpcode(&DC)` (R353). -/
def execUndefinedDC (_s : State) : Result := raise (.undefinedOpcode 0xDC)

/-- First byte &DE: `raise UndefinedOpcode(&DE)` (R353). -/
def execUndefinedDE (_s : State) : Result := raise (.undefinedOpcode 0xDE)

end Sys2Proof.Machine
end

