-- ==== Sys2Proof/Syntax.lean ====
section
/-! DEFINITION. The instructions: one constructor for each row of spec/opcode_table.json (133 described
instructions, WRIT, and the 28 first bytes without a description). An operand has exactly the width its
encoding gives it (30_encoding.md rule R98), so no operand can be out of range. -/

namespace Sys2Proof

/-- The instruction set of the SC 61860 (30_encoding.md rule R100). `n` is an 8-bit operand, `nm` a 16-bit
one, `l` the 6 bits of LP or the entry count of PTJ, `ln` the 13-bit target of CAL. -/
inductive Instr where
  -- 40_load_transfer.md rules R121 to R149
  | lii (n : Byte)
  | lij (n : Byte)
  | lia (n : Byte)
  | lib (n : Byte)
  | lidp (nm : Word)
  | lidl (n : Byte)
  | lip (n : Byte)
  | liq (n : Byte)
  | lp (l : BitVec 6)
  | ldp
  | ldq
  | ldr
  | ra
  | stp
  | stq
  | str
  | ldm
  | ldd
  | std
  | mvdm
  | mvmd
  | exab
  | exam
  | swp
  | read
  | readm
  | push
  | pop
  | leave
  -- 41_arithmetic_logic.md rules R172 to R200
  | adm
  | sbm
  | adcm
  | sbcm
  | adia (n : Byte)
  | sbia (n : Byte)
  | adim (n : Byte)
  | sbim (n : Byte)
  | adb
  | sbb
  | anma
  | orma
  | tsma
  | cpma
  | anim (n : Byte)
  | orim (n : Byte)
  | tsim (n : Byte)
  | cpim (n : Byte)
  | ania (n : Byte)
  | oria (n : Byte)
  | tsia (n : Byte)
  | cpia (n : Byte)
  | anid (n : Byte)
  | orid (n : Byte)
  | tsid (n : Byte)
  | sl
  | sr
  | sc
  | rc
  -- 42_inc_dec_pointer.md rules R221 to R247
  | inci
  | deci
  | incj
  | decj
  | inca
  | deca
  | incb
  | decb
  | inck
  | deck
  | incl
  | decl
  | incm
  | decm
  | incn
  | decn
  | incp
  | decp
  | ix
  | dx
  | iy
  | dy
  | ixl
  | dxl
  | iys
  | dys
  -- 43_block_bcd.md rules R261 to R286
  | mvw
  | mvb
  | exw
  | exb
  | mvwd
  | mvbd
  | exwd
  | exbd
  | film
  | fild
  | data
  | adn
  | sbn
  | adw
  | sbw
  | srw
  | slw
  -- 44_control_flow.md rules R301 to R324
  | jrnzp (n : Byte)
  | jrnzm (n : Byte)
  | jrncp (n : Byte)
  | jrncm (n : Byte)
  | jrp (n : Byte)
  | jrm (n : Byte)
  | jrzp (n : Byte)
  | jrzm (n : Byte)
  | jrcp (n : Byte)
  | jrcm (n : Byte)
  | jp (nm : Word)
  | jpnz (nm : Word)
  | jpnc (nm : Word)
  | jpz (nm : Word)
  | jpc (nm : Word)
  | loop (n : Byte)
  | call (nm : Word)
  | cal (ln : BitVec 13)
  | rtn
  | ptj (l : Byte) (nm : Word)
  | dtj
  -- 45_io_timing_misc.md rules R341 to R353
  | ina
  | inb
  | outa
  | outb
  | outf
  | outc
  | test (n : Byte)
  | nopw
  | nopt
  | wait (n : Byte)
  | waiti
  | writ
  | undefined16
  | undefined17
  | undefined2E
  | undefined33
  | undefined36
  | undefined3C
  | undefined3D
  | undefined3E
  | undefined3F
  | undefined5C
  | undefined5E
  | undefined68
  | undefined6A
  | undefined6C
  | undefined6D
  | undefined6E
  | undefined6F
  | undefined72
  | undefined73
  | undefined76
  | undefined77
  | undefined7B
  | undefinedCD
  | undefinedCF
  | undefinedD7
  | undefinedD9
  | undefinedDC
  | undefinedDE
deriving DecidableEq, Repr

end Sys2Proof
end

