-- ==== Sys2Proof/Machine/Dispatch.lean ====
section
/-! DEFINITION. One meaning for each instruction. -/

namespace Sys2Proof.Machine

def exec (i : Instr) (s : State) : Host.Outcome State Fault Refusal :=
  match i with
  | .lii n => Sys2Proof.Machine.execLii n s
  | .lij n => Sys2Proof.Machine.execLij n s
  | .lia n => Sys2Proof.Machine.execLia n s
  | .lib n => Sys2Proof.Machine.execLib n s
  | .lidp nm => Sys2Proof.Machine.execLidp nm s
  | .lidl n => Sys2Proof.Machine.execLidl n s
  | .lip n => Sys2Proof.Machine.execLip n s
  | .liq n => Sys2Proof.Machine.execLiq n s
  | .lp l => Sys2Proof.Machine.execLp l s
  | .ldp => Sys2Proof.Machine.execLdp s
  | .ldq => Sys2Proof.Machine.execLdq s
  | .ldr => Sys2Proof.Machine.execLdr s
  | .ra => Sys2Proof.Machine.execRa s
  | .stp => Sys2Proof.Machine.execStp s
  | .stq => Sys2Proof.Machine.execStq s
  | .str => Sys2Proof.Machine.execStr s
  | .ldm => Sys2Proof.Machine.execLdm s
  | .ldd => Sys2Proof.Machine.execLdd s
  | .std => Sys2Proof.Machine.execStd s
  | .mvdm => Sys2Proof.Machine.execMvdm s
  | .mvmd => Sys2Proof.Machine.execMvmd s
  | .exab => Sys2Proof.Machine.execExab s
  | .exam => Sys2Proof.Machine.execExam s
  | .swp => Sys2Proof.Machine.execSwp s
  | .read => Sys2Proof.Machine.execRead s
  | .readm => Sys2Proof.Machine.execReadm s
  | .push => Sys2Proof.Machine.execPush s
  | .pop => Sys2Proof.Machine.execPop s
  | .leave => Sys2Proof.Machine.execLeave s
  | .adm => Sys2Proof.Machine.execAdm s
  | .sbm => Sys2Proof.Machine.execSbm s
  | .adcm => Sys2Proof.Machine.execAdcm s
  | .sbcm => Sys2Proof.Machine.execSbcm s
  | .adia n => Sys2Proof.Machine.execAdia n s
  | .sbia n => Sys2Proof.Machine.execSbia n s
  | .adim n => Sys2Proof.Machine.execAdim n s
  | .sbim n => Sys2Proof.Machine.execSbim n s
  | .adb => Sys2Proof.Machine.execAdb s
  | .sbb => Sys2Proof.Machine.execSbb s
  | .anma => Sys2Proof.Machine.execAnma s
  | .orma => Sys2Proof.Machine.execOrma s
  | .tsma => Sys2Proof.Machine.execTsma s
  | .cpma => Sys2Proof.Machine.execCpma s
  | .anim n => Sys2Proof.Machine.execAnim n s
  | .orim n => Sys2Proof.Machine.execOrim n s
  | .tsim n => Sys2Proof.Machine.execTsim n s
  | .cpim n => Sys2Proof.Machine.execCpim n s
  | .ania n => Sys2Proof.Machine.execAnia n s
  | .oria n => Sys2Proof.Machine.execOria n s
  | .tsia n => Sys2Proof.Machine.execTsia n s
  | .cpia n => Sys2Proof.Machine.execCpia n s
  | .anid n => Sys2Proof.Machine.execAnid n s
  | .orid n => Sys2Proof.Machine.execOrid n s
  | .tsid n => Sys2Proof.Machine.execTsid n s
  | .sl => Sys2Proof.Machine.execSl s
  | .sr => Sys2Proof.Machine.execSr s
  | .sc => Sys2Proof.Machine.execSc s
  | .rc => Sys2Proof.Machine.execRc s
  | .inci => Sys2Proof.Machine.execInci s
  | .deci => Sys2Proof.Machine.execDeci s
  | .incj => Sys2Proof.Machine.execIncj s
  | .decj => Sys2Proof.Machine.execDecj s
  | .inca => Sys2Proof.Machine.execInca s
  | .deca => Sys2Proof.Machine.execDeca s
  | .incb => Sys2Proof.Machine.execIncb s
  | .decb => Sys2Proof.Machine.execDecb s
  | .inck => Sys2Proof.Machine.execInck s
  | .deck => Sys2Proof.Machine.execDeck s
  | .incl => Sys2Proof.Machine.execIncl s
  | .decl => Sys2Proof.Machine.execDecl s
  | .incm => Sys2Proof.Machine.execIncm s
  | .decm => Sys2Proof.Machine.execDecm s
  | .incn => Sys2Proof.Machine.execIncn s
  | .decn => Sys2Proof.Machine.execDecn s
  | .incp => Sys2Proof.Machine.execIncp s
  | .decp => Sys2Proof.Machine.execDecp s
  | .ix => Sys2Proof.Machine.execIx s
  | .dx => Sys2Proof.Machine.execDx s
  | .iy => Sys2Proof.Machine.execIy s
  | .dy => Sys2Proof.Machine.execDy s
  | .ixl => Sys2Proof.Machine.execIxl s
  | .dxl => Sys2Proof.Machine.execDxl s
  | .iys => Sys2Proof.Machine.execIys s
  | .dys => Sys2Proof.Machine.execDys s
  | .mvw => Sys2Proof.Machine.execMvw s
  | .mvb => Sys2Proof.Machine.execMvb s
  | .exw => Sys2Proof.Machine.execExw s
  | .exb => Sys2Proof.Machine.execExb s
  | .mvwd => Sys2Proof.Machine.execMvwd s
  | .mvbd => Sys2Proof.Machine.execMvbd s
  | .exwd => Sys2Proof.Machine.execExwd s
  | .exbd => Sys2Proof.Machine.execExbd s
  | .film => Sys2Proof.Machine.execFilm s
  | .fild => Sys2Proof.Machine.execFild s
  | .data => Sys2Proof.Machine.execData s
  | .adn => Sys2Proof.Machine.execAdn s
  | .sbn => Sys2Proof.Machine.execSbn s
  | .adw => Sys2Proof.Machine.execAdw s
  | .sbw => Sys2Proof.Machine.execSbw s
  | .srw => Sys2Proof.Machine.execSrw s
  | .slw => Sys2Proof.Machine.execSlw s
  | .jrnzp n => Sys2Proof.Machine.execJrnzp n s
  | .jrnzm n => Sys2Proof.Machine.execJrnzm n s
  | .jrncp n => Sys2Proof.Machine.execJrncp n s
  | .jrncm n => Sys2Proof.Machine.execJrncm n s
  | .jrp n => Sys2Proof.Machine.execJrp n s
  | .jrm n => Sys2Proof.Machine.execJrm n s
  | .jrzp n => Sys2Proof.Machine.execJrzp n s
  | .jrzm n => Sys2Proof.Machine.execJrzm n s
  | .jrcp n => Sys2Proof.Machine.execJrcp n s
  | .jrcm n => Sys2Proof.Machine.execJrcm n s
  | .jp nm => Sys2Proof.Machine.execJp nm s
  | .jpnz nm => Sys2Proof.Machine.execJpnz nm s
  | .jpnc nm => Sys2Proof.Machine.execJpnc nm s
  | .jpz nm => Sys2Proof.Machine.execJpz nm s
  | .jpc nm => Sys2Proof.Machine.execJpc nm s
  | .loop n => Sys2Proof.Machine.execLoop n s
  | .call nm => Sys2Proof.Machine.execCall nm s
  | .cal ln => Sys2Proof.Machine.execCal ln s
  | .rtn => Sys2Proof.Machine.execRtn s
  | .ptj l nm => Sys2Proof.Machine.execPtj l nm s
  | .dtj => Sys2Proof.Machine.execDtj s
  | .ina => Sys2Proof.Machine.execIna s
  | .inb => Sys2Proof.Machine.execInb s
  | .outa => Sys2Proof.Machine.execOuta s
  | .outb => Sys2Proof.Machine.execOutb s
  | .outf => Sys2Proof.Machine.execOutf s
  | .outc => Sys2Proof.Machine.execOutc s
  | .test n => Sys2Proof.Machine.execTest n s
  | .nopw => Sys2Proof.Machine.execNopw s
  | .nopt => Sys2Proof.Machine.execNopt s
  | .wait n => Sys2Proof.Machine.execWait n s
  | .waiti => Sys2Proof.Machine.execWaiti s
  | .writ => Sys2Proof.Machine.execWrit s
  | .undefined16 => Sys2Proof.Machine.execUndefined16 s
  | .undefined17 => Sys2Proof.Machine.execUndefined17 s
  | .undefined2E => Sys2Proof.Machine.execUndefined2E s
  | .undefined33 => Sys2Proof.Machine.execUndefined33 s
  | .undefined36 => Sys2Proof.Machine.execUndefined36 s
  | .undefined3C => Sys2Proof.Machine.execUndefined3C s
  | .undefined3D => Sys2Proof.Machine.execUndefined3D s
  | .undefined3E => Sys2Proof.Machine.execUndefined3E s
  | .undefined3F => Sys2Proof.Machine.execUndefined3F s
  | .undefined5C => Sys2Proof.Machine.execUndefined5C s
  | .undefined5E => Sys2Proof.Machine.execUndefined5E s
  | .undefined68 => Sys2Proof.Machine.execUndefined68 s
  | .undefined6A => Sys2Proof.Machine.execUndefined6A s
  | .undefined6C => Sys2Proof.Machine.execUndefined6C s
  | .undefined6D => Sys2Proof.Machine.execUndefined6D s
  | .undefined6E => Sys2Proof.Machine.execUndefined6E s
  | .undefined6F => Sys2Proof.Machine.execUndefined6F s
  | .undefined72 => Sys2Proof.Machine.execUndefined72 s
  | .undefined73 => Sys2Proof.Machine.execUndefined73 s
  | .undefined76 => Sys2Proof.Machine.execUndefined76 s
  | .undefined77 => Sys2Proof.Machine.execUndefined77 s
  | .undefined7B => Sys2Proof.Machine.execUndefined7B s
  | .undefinedCD => Sys2Proof.Machine.execUndefinedCD s
  | .undefinedCF => Sys2Proof.Machine.execUndefinedCF s
  | .undefinedD7 => Sys2Proof.Machine.execUndefinedD7 s
  | .undefinedD9 => Sys2Proof.Machine.execUndefinedD9 s
  | .undefinedDC => Sys2Proof.Machine.execUndefinedDC s
  | .undefinedDE => Sys2Proof.Machine.execUndefinedDE s

end Sys2Proof.Machine
end

