-- ==== Sys2Proof/Decode.lean ====
section
/-! DEFINITION. The decoder, from the opcode map of 30_encoding.md rule R100, and after it the encoder, from the
formats of rules R90 to R96. Decoding is total: each first byte has exactly one entry, and the two ways a list of
bytes can fail to hold an instruction have names. -/

namespace Sys2Proof

/-- One cell of the opcode map with the format of its instruction (30_encoding.md rule R90). DTJ's table is read
when it executes, so DTJ is a `plain` entry here (rule R97). -/
inductive OpcodeEntry where
  /-- F1, and the first bytes without a description, for which no further byte is looked at (R101) -/
  | plain (i : Instr)
  /-- F1P: LP, whose operand is in the first byte (R92) -/
  | lp
  /-- F2: one operand byte (R93) -/
  | byte (mk : Byte → Instr)
  /-- F2C: CAL, 5 target bits in the first byte and 8 in the second (R94) -/
  | cal
  /-- F3: a 16-bit operand, high byte first (R95) -/
  | word (mk : Word → Instr)
  /-- F4: PTJ's count and then its 16-bit operand, high byte first (R96) -/
  | table (mk : Byte → Word → Instr)

/-- First bytes &00 to &0F (R100). -/
def opcodeColumn0 : Vector OpcodeEntry 16 :=
  #v[.byte .lii, .byte .lij, .byte .lia, .byte .lib,
     .plain .ix, .plain .dx, .plain .iy, .plain .dy,
     .plain .mvw, .plain .exw, .plain .mvb, .plain .exb,
     .plain .adn, .plain .sbn, .plain .adw, .plain .sbw]

/-- First bytes &10 to &1F (R100). -/
def opcodeColumn1 : Vector OpcodeEntry 16 :=
  #v[.word .lidp, .byte .lidl, .byte .lip, .byte .liq,
     .plain .adb, .plain .sbb, .plain .undefined16, .plain .undefined17,
     .plain .mvwd, .plain .exwd, .plain .mvbd, .plain .exbd,
     .plain .srw, .plain .slw, .plain .film, .plain .fild]

/-- First bytes &20 to &2F (R100). -/
def opcodeColumn2 : Vector OpcodeEntry 16 :=
  #v[.plain .ldp, .plain .ldq, .plain .ldr, .plain .ra,
     .plain .ixl, .plain .dxl, .plain .iys, .plain .dys,
     .byte .jrnzp, .byte .jrnzm, .byte .jrncp, .byte .jrncm,
     .byte .jrp, .byte .jrm, .plain .undefined2E, .byte .loop]

/-- First bytes &30 to &3F (R100). -/
def opcodeColumn3 : Vector OpcodeEntry 16 :=
  #v[.plain .stp, .plain .stq, .plain .str, .plain .undefined33,
     .plain .push, .plain .data, .plain .undefined36, .plain .rtn,
     .byte .jrzp, .byte .jrzm, .byte .jrcp, .byte .jrcm,
     .plain .undefined3C, .plain .undefined3D, .plain .undefined3E, .plain .undefined3F]

/-- First bytes &40 to &4F (R100). -/
def opcodeColumn4 : Vector OpcodeEntry 16 :=
  #v[.plain .inci, .plain .deci, .plain .inca, .plain .deca,
     .plain .adm, .plain .sbm, .plain .anma, .plain .orma,
     .plain .inck, .plain .deck, .plain .incm, .plain .decm,
     .plain .ina, .plain .nopw, .byte .wait, .plain .waiti]

/-- First bytes &50 to &5F (R100). -/
def opcodeColumn5 : Vector OpcodeEntry 16 :=
  #v[.plain .incp, .plain .decp, .plain .std, .plain .mvdm,
     .plain .readm, .plain .mvmd, .plain .read, .plain .ldd,
     .plain .swp, .plain .ldm, .plain .sl, .plain .pop,
     .plain .undefined5C, .plain .outa, .plain .undefined5E, .plain .outf]

/-- First bytes &60 to &6F (R100). -/
def opcodeColumn6 : Vector OpcodeEntry 16 :=
  #v[.byte .anim, .byte .orim, .byte .tsim, .byte .cpim,
     .byte .ania, .byte .oria, .byte .tsia, .byte .cpia,
     .plain .undefined68, .plain .dtj, .plain .undefined6A, .byte .test,
     .plain .undefined6C, .plain .undefined6D, .plain .undefined6E, .plain .undefined6F]

/-- First bytes &70 to &7F (R100). -/
def opcodeColumn7 : Vector OpcodeEntry 16 :=
  #v[.byte .adim, .byte .sbim, .plain .undefined72, .plain .undefined73,
     .byte .adia, .byte .sbia, .plain .undefined76, .plain .undefined77,
     .word .call, .word .jp, .table .ptj, .plain .undefined7B,
     .word .jpnz, .word .jpnc, .word .jpz, .word .jpc]

/-- First bytes &C0 to &CF (R100). -/
def opcodeColumnC : Vector OpcodeEntry 16 :=
  #v[.plain .incj, .plain .decj, .plain .incb, .plain .decb,
     .plain .adcm, .plain .sbcm, .plain .tsma, .plain .cpma,
     .plain .incl, .plain .decl, .plain .incn, .plain .decn,
     .plain .inb, .plain .undefinedCD, .plain .nopt, .plain .undefinedCF]

/-- First bytes &D0 to &DF (R100). -/
def opcodeColumnD : Vector OpcodeEntry 16 :=
  #v[.plain .sc, .plain .rc, .plain .sr, .plain .writ,
     .byte .anid, .byte .orid, .byte .tsid, .plain .undefinedD7,
     .plain .leave, .plain .undefinedD9, .plain .exab, .plain .exam,
     .plain .undefinedDC, .plain .outb, .plain .undefinedDE, .plain .outc]

/-- The opcode map (R100): a column of sixteen entries for each high nibble of the first byte. -/
def opcodeMap : Vector (Vector OpcodeEntry 16) 16 :=
  #v[opcodeColumn0, opcodeColumn1, opcodeColumn2, opcodeColumn3,
     opcodeColumn4, opcodeColumn5, opcodeColumn6, opcodeColumn7,
     Vector.replicate 16 .lp, Vector.replicate 16 .lp, Vector.replicate 16 .lp, Vector.replicate 16 .lp,
     opcodeColumnC, opcodeColumnD,
     Vector.replicate 16 .cal, Vector.replicate 16 .cal]

/-- The entry of a first byte: "The first byte alone decides the instruction and its length" (R90, R99). -/
def opcodeEntry (b0 : Byte) : OpcodeEntry :=
  (opcodeMap[(hiNibble b0).toNat]'(hiNibble b0).isLt)[(loNibble b0).toNat]'(loNibble b0).isLt

/-- How many operand bytes follow the first byte in the instruction's own length (R90). -/
def OpcodeEntry.operandCount : OpcodeEntry → Nat
  | .plain _ => 0
  | .lp => 0
  | .byte _ => 1
  | .cal => 1
  | .word _ => 2
  | .table _ => 3

/-- The instruction of an entry, from the first byte and the operand bytes after it (R98). -/
def OpcodeEntry.instr (e : OpcodeEntry) (b0 op1 op2 op3 : Byte) : Instr :=
  match e with
  | .plain i => i
  | .lp => .lp (b0.extractLsb' 0 6)
  | .byte mk => mk op1
  | .cal => .cal (b0.extractLsb' 0 5 ++ op1)
  | .word mk => mk (joinBytes op1 op2)
  | .table mk => mk op1 (joinBytes op2 op3)

/-- How many operand bytes the first byte `b0` asks for (R99). -/
def operandCount (b0 : Byte) : Nat := (opcodeEntry b0).operandCount

/-- The instruction of a first byte and the operand bytes that follow it, of which exactly the
`operandCount b0` first ones matter. -/
def decodeOpcode (b0 : Byte) (ops : List Byte) : Instr :=
  (opcodeEntry b0).instr b0 (ops.getD 0 0) (ops.getD 1 0) (ops.getD 2 0)

/-- Why a list of bytes holds no instruction. -/
inductive DecodeError where
  /-- there is no byte -/
  | noByte
  /-- the list ends before the operand bytes of first byte `b0` do -/
  | missingOperand (b0 : Byte)
deriving DecidableEq, Repr

/-- The instruction at the head of a list of bytes, and the bytes after it (R99, R107). -/
def decode : List Byte → Except DecodeError (Instr × List Byte)
  | [] => .error .noByte
  | b0 :: rest =>
    if rest.length < operandCount b0 then .error (.missingOperand b0)
    else .ok (decodeOpcode b0 (rest.take (operandCount b0)), rest.drop (operandCount b0))

/-- The four bytes, the longest instruction's length (R90), of an instruction whose bits are `w`, the first byte
being bits 7..0; the bits from `nbits` on are 0. -/
def tableBytes (nbits w : Nat) : List Byte :=
  [BitVec.ofNat 8 (w % 2 ^ nbits), BitVec.ofNat 8 (w % 2 ^ nbits / 0x100),
   BitVec.ofNat 8 (w % 2 ^ nbits / 0x10000), BitVec.ofNat 8 (w % 2 ^ nbits / 0x1000000)]

/-- The instruction the decoder reads from a word of spec/opcode_table.json. -/
def decodeTableWord (nbits w : Nat) : Option Instr :=
  match decode (tableBytes nbits w) with
  | .ok r => some r.1
  | .error _ => none

/-- F2: opcode and one operand byte (R93). -/
def encodeByte (op n : Byte) : List Byte := [op, n]

/-- F3: opcode and a 16-bit operand, high byte first (R95). -/
def encodeWord (op : Byte) (nm : Word) : List Byte := [op, hiByte nm, loByte nm]

/-- The bytes of an instruction in the order memory holds them (30_encoding.md rules R90 to R97, R100). -/
def encode : Instr → List Byte
  | .lii n => encodeByte 0x00 n
  | .lij n => encodeByte 0x01 n
  | .lia n => encodeByte 0x02 n
  | .lib n => encodeByte 0x03 n
  | .lidp nm => encodeWord 0x10 nm
  | .lidl n => encodeByte 0x11 n
  | .lip n => encodeByte 0x12 n
  | .liq n => encodeByte 0x13 n
  | .lp l => [0b10#2 ++ l]
  | .ldp => [0x20]
  | .ldq => [0x21]
  | .ldr => [0x22]
  | .ra => [0x23]
  | .stp => [0x30]
  | .stq => [0x31]
  | .str => [0x32]
  | .ldm => [0x59]
  | .ldd => [0x57]
  | .std => [0x52]
  | .mvdm => [0x53]
  | .mvmd => [0x55]
  | .exab => [0xDA]
  | .exam => [0xDB]
  | .swp => [0x58]
  | .read => [0x56]
  | .readm => [0x54]
  | .push => [0x34]
  | .pop => [0x5B]
  | .leave => [0xD8]
  | .adm => [0x44]
  | .sbm => [0x45]
  | .adcm => [0xC4]
  | .sbcm => [0xC5]
  | .adia n => encodeByte 0x74 n
  | .sbia n => encodeByte 0x75 n
  | .adim n => encodeByte 0x70 n
  | .sbim n => encodeByte 0x71 n
  | .adb => [0x14]
  | .sbb => [0x15]
  | .anma => [0x46]
  | .orma => [0x47]
  | .tsma => [0xC6]
  | .cpma => [0xC7]
  | .anim n => encodeByte 0x60 n
  | .orim n => encodeByte 0x61 n
  | .tsim n => encodeByte 0x62 n
  | .cpim n => encodeByte 0x63 n
  | .ania n => encodeByte 0x64 n
  | .oria n => encodeByte 0x65 n
  | .tsia n => encodeByte 0x66 n
  | .cpia n => encodeByte 0x67 n
  | .anid n => encodeByte 0xD4 n
  | .orid n => encodeByte 0xD5 n
  | .tsid n => encodeByte 0xD6 n
  | .sl => [0x5A]
  | .sr => [0xD2]
  | .sc => [0xD0]
  | .rc => [0xD1]
  | .inci => [0x40]
  | .deci => [0x41]
  | .incj => [0xC0]
  | .decj => [0xC1]
  | .inca => [0x42]
  | .deca => [0x43]
  | .incb => [0xC2]
  | .decb => [0xC3]
  | .inck => [0x48]
  | .deck => [0x49]
  | .incl => [0xC8]
  | .decl => [0xC9]
  | .incm => [0x4A]
  | .decm => [0x4B]
  | .incn => [0xCA]
  | .decn => [0xCB]
  | .incp => [0x50]
  | .decp => [0x51]
  | .ix => [0x04]
  | .dx => [0x05]
  | .iy => [0x06]
  | .dy => [0x07]
  | .ixl => [0x24]
  | .dxl => [0x25]
  | .iys => [0x26]
  | .dys => [0x27]
  | .mvw => [0x08]
  | .mvb => [0x0A]
  | .exw => [0x09]
  | .exb => [0x0B]
  | .mvwd => [0x18]
  | .mvbd => [0x1A]
  | .exwd => [0x19]
  | .exbd => [0x1B]
  | .film => [0x1E]
  | .fild => [0x1F]
  | .data => [0x35]
  | .adn => [0x0C]
  | .sbn => [0x0D]
  | .adw => [0x0E]
  | .sbw => [0x0F]
  | .srw => [0x1C]
  | .slw => [0x1D]
  | .jrnzp n => encodeByte 0x28 n
  | .jrnzm n => encodeByte 0x29 n
  | .jrncp n => encodeByte 0x2A n
  | .jrncm n => encodeByte 0x2B n
  | .jrp n => encodeByte 0x2C n
  | .jrm n => encodeByte 0x2D n
  | .jrzp n => encodeByte 0x38 n
  | .jrzm n => encodeByte 0x39 n
  | .jrcp n => encodeByte 0x3A n
  | .jrcm n => encodeByte 0x3B n
  | .jp nm => encodeWord 0x79 nm
  | .jpnz nm => encodeWord 0x7C nm
  | .jpnc nm => encodeWord 0x7D nm
  | .jpz nm => encodeWord 0x7E nm
  | .jpc nm => encodeWord 0x7F nm
  | .loop n => encodeByte 0x2F n
  | .call nm => encodeWord 0x78 nm
  | .cal ln => [0b111#3 ++ ln.extractLsb' 8 5, ln.extractLsb' 0 8]
  | .rtn => [0x37]
  | .ptj l nm => [0x7A, l, hiByte nm, loByte nm]
  | .dtj => [0x69]
  | .ina => [0x4C]
  | .inb => [0xCC]
  | .outa => [0x5D]
  | .outb => [0xDD]
  | .outf => [0x5F]
  | .outc => [0xDF]
  | .test n => encodeByte 0x6B n
  | .nopw => [0x4D]
  | .nopt => [0xCE]
  | .wait n => encodeByte 0x4E n
  | .waiti => [0x4F]
  | .writ => [0xD3]
  | .undefined16 => [0x16]
  | .undefined17 => [0x17]
  | .undefined2E => [0x2E]
  | .undefined33 => [0x33]
  | .undefined36 => [0x36]
  | .undefined3C => [0x3C]
  | .undefined3D => [0x3D]
  | .undefined3E => [0x3E]
  | .undefined3F => [0x3F]
  | .undefined5C => [0x5C]
  | .undefined5E => [0x5E]
  | .undefined68 => [0x68]
  | .undefined6A => [0x6A]
  | .undefined6C => [0x6C]
  | .undefined6D => [0x6D]
  | .undefined6E => [0x6E]
  | .undefined6F => [0x6F]
  | .undefined72 => [0x72]
  | .undefined73 => [0x73]
  | .undefined76 => [0x76]
  | .undefined77 => [0x77]
  | .undefined7B => [0x7B]
  | .undefinedCD => [0xCD]
  | .undefinedCF => [0xCF]
  | .undefinedD7 => [0xD7]
  | .undefinedD9 => [0xD9]
  | .undefinedDC => [0xDC]
  | .undefinedDE => [0xDE]

/-- The length of an instruction in bytes, without the table of a DTJ (R90). -/
def instrLength (i : Instr) : Nat := (encode i).length

end Sys2Proof
end

