-- ==== Sys2Proof/Machine/Fetch.lean ====
section
/-! DEFINITION. Fetching an instruction (30_encoding.md rule R107), and placing one where the next fetch finds it. -/

namespace Sys2Proof.Machine

/-- `n` bytes of program space from `a` up, read one by one (R107). -/
def fetchBytes : Nat → Word → State → List Byte × State
  | 0, _, s => ([], s)
  | n + 1, a, s =>
    let b := s.codeRead a
    let rest := fetchBytes n (a + 1) b.2
    (b.1 :: rest.1, rest.2)

/-- `byte0 <- CodeRead(pc)`, then the operand bytes its format has, then the instruction they hold (R107); for a first
byte without a description no further byte is looked at (60_exceptions.md rule R383). -/
def fetch (s : State) : Instr × State :=
  let b0 := s.codeRead s.pc
  let ops := fetchBytes (operandCount b0.1) (s.pc + 1) b0.2
  (decodeOpcode b0.1 ops.1, ops.2)

/-- A fetch at `a` reads a byte that memory holds, not a draw. -/
def State.fetchable (s : State) (a : Word) : Bool :=
  match s.backing a with
  | .internalRom => true
  | .ram => true
  | .rom => true
  | .device => false
  | .nothing => false

/-- The state in which a fetch at `a` gives `v`: the byte placed in memory and, where nothing that holds bytes answers
at `a`, one address of RAM put there. -/
def State.placeByte (s : State) (a : Word) (v : Byte) : State :=
  let t := s.storeByte a v
  if s.fetchable a then t
  else { t with platform := { t.platform with memmap := ⟨a.toNat, 1, .ram⟩ :: t.platform.memmap } }

/-- Bytes placed from `a` up. -/
def State.placeBytes (s : State) : Word → List Byte → State
  | _, [] => s
  | a, v :: rest => (s.placeByte a v).placeBytes (a + 1) rest

/-- The state whose next step fetches the instruction of a table word: its four bytes at pc, and the run running. -/
def State.placeInstruction (s : State) (nbits w : Nat) : State :=
  { s with status := .running }.placeBytes s.pc (tableBytes nbits w)

end Sys2Proof.Machine
end

