-- ==== Sys2Proof/Machine/Step.lean ====
section
/-! DEFINITION. One step: fetch, decode, execute (30_encoding.md rule R107), in a running state only
(10_state.md rule R42). -/

namespace Sys2Proof.Machine

/-- One step of the machine. -/
def step (s : State) : Host.Outcome State Fault Refusal :=
  match s.status with
  | .running => exec (fetch s).1 (fetch s).2
  | .returned => raise (.notRunning .returned)
  | .stopped reason => raise (.notRunning (.stopped reason))

/-- The state whose next step fetches and runs the instruction of a word of spec/opcode_table.json (log entry 6). -/
def State.withFetchWord (s : State) (nbits w : Nat) : State := s.placeInstruction nbits w

end Sys2Proof.Machine
end

