-- ==== Sys2Proof/Machine/Platforms.lean ====
section
/-! DEFINITION. The per-model tables of 20_memory.md rules R75, R78, R79 and R82, and the platform each model has by
them. Where the printed decimal disagrees with the hexadecimal the hexadecimal stands (90_conflicts.md C28). -/

namespace Sys2Proof.Machine

/-- The pocket computers the tables of R78 and R79 name. -/
inductive Model where
  | pc1245
  | pc1251
  | pc1260
  | pc1261
  | pc1262
  | pc1280
  | pc1350
  | pc1360
  | pc1401
  | pc1402
  | pc1403
  | pc1421
  | pc1422
  | pc1425
  | pc1450
  | pc1460
  | pc1475
  | pc2500
deriving DecidableEq, Repr

/-- One row of R78: the BASIC programme area of some models with one size of memory. -/
structure BasicArea where
  label : String
  models : List Model
  first : Nat
  last : Nat
deriving DecidableEq, Repr

/-- The table of R78. -/
def basicAreas : List BasicArea :=
  [⟨"PC-1245", [.pc1245], 0xC030, 0xC5CF⟩,
   ⟨"PC-1251", [.pc1251], 0xB830, 0xC5CF⟩,
   ⟨"PC-1260", [.pc1260], 0x5880, 0x65CF⟩,
   ⟨"PC-1261/1262", [.pc1261, .pc1262], 0x4080, 0x65CF⟩,
   ⟨"PC-1280/1360/1475 (8 K)", [.pc1280, .pc1360, .pc1475], 0xE030, 0xF9CF⟩,
   ⟨"PC-1360/1475 (16 K)", [.pc1360, .pc1475], 0xC030, 0xF9CF⟩,
   ⟨"PC-1280/1360/1475 (32 K)", [.pc1280, .pc1360, .pc1475], 0x8030, 0xF9CF⟩,
   ⟨"PC-1350/2500 (5 K)", [.pc1350, .pc2500], 0x6030, 0x6C2F⟩,
   ⟨"PC-1350/2500 (13 K)", [.pc1350, .pc2500], 0x4030, 0x6C2F⟩,
   ⟨"PC-1350/2500 (21 K)", [.pc1350, .pc2500], 0x2030, 0x6C2F⟩,
   ⟨"PC-1401", [.pc1401], 0x3800, 0x45CF⟩,
   ⟨"PC-1402", [.pc1402], 0x2000, 0x45CF⟩,
   ⟨"PC-1403/1425/1460 (8 K)", [.pc1403, .pc1425, .pc1460], 0xE030, 0xF80F⟩,
   ⟨"PC-1425/1460 (16 K)", [.pc1425, .pc1460], 0xC030, 0xF80F⟩,
   ⟨"PC-1403+/25/60 (32 K)", [.pc1403, .pc1425, .pc1460], 0x8030, 0xF80F⟩,
   ⟨"PC-1421", [.pc1421], 0x3800, 0x457F⟩,
   ⟨"PC-1421+ (10 K)", [.pc1421], 0x2000, 0x457F⟩,
   ⟨"PC-1450 (4 K)", [.pc1450], 0x5030, 0x5C2F⟩,
   ⟨"PC-1450 (8 K)", [.pc1450], 0x4030, 0x5C2F⟩,
   ⟨"PC-1450 (16 K)", [.pc1450], 0x2030, 0x5C2F⟩]

/-- One row of R79: where the low byte of each system pointer stands; its high byte is at the next address. -/
structure SystemPointers where
  basicStart : Nat
  basicEnd : Nat
  arraysStart : Nat
deriving DecidableEq, Repr

/-- The table of R79; the PC-1350's row is that of one card, or of a card in slot C. -/
def systemPointers : Model → SystemPointers
  | .pc1245 => ⟨0xC6E1, 0xC6E3, 0xC6FC⟩
  | .pc1251 => ⟨0xC6E1, 0xC6E3, 0xC6FC⟩
  | .pc1260 => ⟨0x66E1, 0x66E3, 0x6F11⟩
  | .pc1261 => ⟨0x66E1, 0x66E3, 0x6F11⟩
  | .pc1262 => ⟨0x66E1, 0x66E3, 0x6F11⟩
  | .pc1280 => ⟨0xFFD7, 0xFFD9, 0xFFDD⟩
  | .pc1350 => ⟨0x6F01, 0x6F03, 0x66FC⟩
  | .pc1360 => ⟨0xFFD7, 0xFFD9, 0xFFDD⟩
  | .pc1401 => ⟨0x46E1, 0x46E3, 0x46FC⟩
  | .pc1402 => ⟨0x46E1, 0x46E3, 0x46FC⟩
  | .pc1403 => ⟨0xFF01, 0xFF03, 0xFF07⟩
  | .pc1421 => ⟨0x46E1, 0x46E3, 0x46FC⟩
  | .pc1422 => ⟨0x46E1, 0x46E3, 0x46FC⟩
  | .pc1425 => ⟨0xFF01, 0xFF03, 0xFF07⟩
  | .pc1450 => ⟨0x5F01, 0x5F03, 0x56FC⟩
  | .pc1460 => ⟨0xFF01, 0xFF03, 0xFF07⟩
  | .pc1475 => ⟨0xFFD7, 0xFFD9, 0xFFDD⟩
  | .pc2500 => ⟨0x6D91, 0x6D93, 0x6D97⟩

/-- The three pointers of a row. -/
def SystemPointers.addresses (t : SystemPointers) : List Nat := [t.basicStart, t.basicEnd, t.arraysStart]

/-- A system pointer: two bytes of external RAM (R79). -/
def pointerRegion (a : Nat) : Region := ⟨a, 2, .ram⟩

/-- The address a system pointer holds, low byte first (R79). -/
def State.pointerAt (s : State) (a : Word) : Word := joinBytes (s.storedByte (a + 1)) (s.storedByte a)

/-- A BASIC area as a region of `MEMMAP`. -/
def basicRegion (g : BasicArea) : Region := ⟨g.first, g.last + 1 - g.first, .ram⟩

/-- The key port of the PC-1350 and PC-1450 at &3E00 (R82). -/
def keyPort : Region := ⟨0x3E00, 1, .device⟩

/-- The models that have the key port, "qui n'existe pas sur les autres modèles" (R82). -/
def hasKeyPort (m : Model) : Bool := m == .pc1350 || m == .pc1450

/-- "La ROM externe: &8000-&FFFF" (R75). -/
def externalRom : Region := ⟨0x8000, 0x8000, .rom⟩

/-- The general layout of R75 holds where the model's BASIC area leaves &8000-&FFFF free; where it lies there the
per-model table stands instead (90_conflicts.md C39; DEDUCED, log entry 29). -/
def hasExternalRom (g : BasicArea) : Bool := decide (g.last < 0x8000)

/-- The platform of a model with one memory size: the key port where it has one, the RAM of R78, the RAM of its system
pointers, what `fitted` adds of the RAM the source does not map, and the external ROM. The key port comes first, so
that it wins over RAM at the same address, and the ROM last. -/
def platformOf (m : Model) (g : BasicArea) (fitted : List Region) (top : IramTop) (qExtra : Bool) : Platform :=
  { iramTop := top
    bcdwQExtra := qExtra
    memmap := (if hasKeyPort m then [keyPort] else []) ++ basicRegion g ::
      (systemPointers m).addresses.map pointerRegion ++ fitted ++ if hasExternalRom g then [externalRom] else [] }

end Sys2Proof.Machine
end

