-- ==== Sys2Proof/Machine/HostEntry.lean ====
section
/-! DEFINITION. What the BASIC host does to the machine between steps (70_reset_and_hazards.md rule R414,
20_memory.md rule R77): it starts a routine, and it peeks and pokes bytes. No instruction uses these. -/

namespace Sys2Proof.Machine

/-- `HOST_ENTRY` (R414): BASIC's `CALL addr`. The routine starts at `addr` with the host's return address on the
stack, low byte at R, TJ unset and the run running; R is &50 unless the caller knows another value. What else the
interpreter leaves is whatever `s` holds. -/
def State.hostEntry (s : State) (addr returnTo : Word) (r : Ptr := 0x50) : State :=
  { (s.iramSet r (loByte returnTo)).iramSet (r + 1) (hiByte returnTo) with
    r := r, pc := addr, tj := none, status := .running, hostR := some r }

/-- BASIC's `PEEK a` (R77): a data read, so the internal-ROM window gives the address's high byte (R65). -/
def State.peek (s : State) (a : Word) : Byte × State := s.memRead a

/-- BASIC's `POKE a, v1, v2, ...` (R77): data writes at consecutive addresses. -/
def State.poke (s : State) : Word → List Byte → State
  | _, [] => s
  | a, v :: rest => (s.memWrite a v).poke (a + 1) rest

end Sys2Proof.Machine
end

