-- ==== Sys2Proof/Machine/Timing.lean ====
section
/-! DEFINITION. The cycle counts of 70_reset_and_hazards.md rule R420. They are no part of the architectural result
(rule R421: "The model is untimed"): no step reads them and State keeps no clock. -/

namespace Sys2Proof.Machine

/-- `CLOCK_HZ` of the PC-1401/02 (R421); other models' clocks are not given. -/
def clockHz : Nat := 576000

/-- The cycles of an instruction executed in state `s` (R420): d is the entry value of I, or of J in the B forms; a
conditional relative jump takes 7 when taken and 4 when not; LOOP takes 10 when it jumps and 7 when it ends. `none`
for DTJ and for the first bytes without a description, whose figures are not given. -/
def cycleCount (i : Instr) (s : State) : Option Nat :=
  let di := (s.reg .i).toNat
  let dj := (s.reg .j).toNat
  match i with
  | .lii _ => some 4
  | .lij _ => some 4
  | .lia _ => some 4
  | .lib _ => some 4
  | .lidp _ => some 8
  | .lidl _ => some 5
  | .lip _ => some 4
  | .liq _ => some 4
  | .lp _ => some 2
  | .ldp => some 2
  | .ldq => some 2
  | .ldr => some 2
  | .ra => some 2
  | .stp => some 2
  | .stq => some 2
  | .str => some 2
  | .ldm => some 2
  | .ldd => some 3
  | .std => some 2
  | .mvdm => some 3
  | .mvmd => some 3
  | .exab => some 5
  | .exam => some 3
  | .swp => some 2
  | .read => some 3
  | .readm => some 3
  | .push => some 3
  | .pop => some 2
  | .leave => some 2
  | .adm => some 3
  | .sbm => some 3
  | .adcm => some 3
  | .sbcm => some 3
  | .adia _ => some 4
  | .sbia _ => some 4
  | .adim _ => some 4
  | .sbim _ => some 4
  | .adb => some 5
  | .sbb => some 5
  | .anma => some 3
  | .orma => some 3
  | .tsma => some 3
  | .cpma => some 3
  | .anim _ => some 4
  | .orim _ => some 4
  | .tsim _ => some 4
  | .cpim _ => some 4
  | .ania _ => some 4
  | .oria _ => some 4
  | .tsia _ => some 4
  | .cpia _ => some 4
  | .anid _ => some 6
  | .orid _ => some 6
  | .tsid _ => some 6
  | .sl => some 2
  | .sr => some 2
  | .sc => some 2
  | .rc => some 2
  | .inci => some 4
  | .deci => some 4
  | .incj => some 4
  | .decj => some 4
  | .inca => some 4
  | .deca => some 4
  | .incb => some 4
  | .decb => some 4
  | .inck => some 4
  | .deck => some 4
  | .incl => some 4
  | .decl => some 4
  | .incm => some 4
  | .decm => some 4
  | .incn => some 4
  | .decn => some 4
  | .incp => some 2
  | .decp => some 2
  | .ix => some 6
  | .dx => some 6
  | .iy => some 6
  | .dy => some 6
  | .ixl => some 7
  | .dxl => some 7
  | .iys => some 6
  | .dys => some 6
  | .mvw => some (5 + 2 * di)
  | .mvb => some (5 + 2 * dj)
  | .exw => some (6 + 3 * di)
  | .exb => some (6 + 3 * dj)
  | .mvwd => some (5 + 4 * di)
  | .mvbd => some (5 + 4 * dj)
  | .exwd => some (7 + 6 * di)
  | .exbd => some (7 + 6 * dj)
  | .film => some (5 + di)
  | .fild => some (4 + 3 * di)
  | .data => some (11 + 4 * di)
  | .adn => some (7 + 3 * di)
  | .sbn => some (7 + 3 * di)
  | .adw => some (7 + 3 * di)
  | .sbw => some (7 + 3 * di)
  | .srw => some (5 + di)
  | .slw => some (5 + di)
  | .jrnzp _ => some (if !s.z then 7 else 4)
  | .jrnzm _ => some (if !s.z then 7 else 4)
  | .jrncp _ => some (if !s.c then 7 else 4)
  | .jrncm _ => some (if !s.c then 7 else 4)
  | .jrp _ => some 7
  | .jrm _ => some 7
  | .jrzp _ => some (if s.z then 7 else 4)
  | .jrzm _ => some (if s.z then 7 else 4)
  | .jrcp _ => some (if s.c then 7 else 4)
  | .jrcm _ => some (if s.c then 7 else 4)
  | .jp _ => some 6
  | .jpnz _ => some 6
  | .jpnc _ => some 6
  | .jpz _ => some 6
  | .jpc _ => some 6
  | .loop _ => some (if s.iramGet s.r = 0 then 7 else 10)
  | .call _ => some 8
  | .cal _ => some 7
  | .rtn => some 4
  | .ptj _ _ => some 9
  | .dtj => none
  | .ina => some 2
  | .inb => some 2
  | .outa => some 3
  | .outb => some 2
  | .outf => some 3
  | .outc => some 2
  | .test _ => some 4
  | .nopw => some 2
  | .nopt => some 3
  | .wait n => some (6 + n.toNat)
  | .waiti => some (5 + 4 * di)
  | .writ => none
  | .undefined16 => none
  | .undefined17 => none
  | .undefined2E => none
  | .undefined33 => none
  | .undefined36 => none
  | .undefined3C => none
  | .undefined3D => none
  | .undefined3E => none
  | .undefined3F => none
  | .undefined5C => none
  | .undefined5E => none
  | .undefined68 => none
  | .undefined6A => none
  | .undefined6C => none
  | .undefined6D => none
  | .undefined6E => none
  | .undefined6F => none
  | .undefined72 => none
  | .undefined73 => none
  | .undefined76 => none
  | .undefined77 => none
  | .undefined7B => none
  | .undefinedCD => none
  | .undefinedCF => none
  | .undefinedD7 => none
  | .undefinedD9 => none
  | .undefinedDC => none
  | .undefinedDE => none

end Sys2Proof.Machine
end

