-- ==== Sys2Proof/WellFormed.lean ====
section
/-! DEFINITION. The checks a program and a platform pass before they mean anything. An operand has the width of
its field by its type (30_encoding.md rule R98), so the one check on an instruction is that the spec describes it
(30_encoding.md rules R7, R101 and R102). -/

namespace Sys2Proof

/-- The 133 instructions with a description are well formed; WRIT and the 28 first bytes of 30_encoding.md rule
R101, which "have no instruction page", are not. -/
def Instr.wellFormed : Instr → Bool
  | .lii _ | .lij _ | .lia _ | .lib _ | .lidp _ | .lidl _ | .lip _ | .liq _ | .lp _ => true
  | .ldp | .ldq | .ldr | .ra | .stp | .stq | .str | .ldm | .ldd | .std | .mvdm | .mvmd => true
  | .exab | .exam | .swp | .read | .readm | .push | .pop | .leave => true
  | .adm | .sbm | .adcm | .sbcm | .adia _ | .sbia _ | .adim _ | .sbim _ | .adb | .sbb => true
  | .anma | .orma | .tsma | .cpma | .anim _ | .orim _ | .tsim _ | .cpim _ => true
  | .ania _ | .oria _ | .tsia _ | .cpia _ | .anid _ | .orid _ | .tsid _ => true
  | .sl | .sr | .sc | .rc => true
  | .inci | .deci | .incj | .decj | .inca | .deca | .incb | .decb => true
  | .inck | .deck | .incl | .decl | .incm | .decm | .incn | .decn | .incp | .decp => true
  | .ix | .dx | .iy | .dy | .ixl | .dxl | .iys | .dys => true
  | .mvw | .mvb | .exw | .exb | .mvwd | .mvbd | .exwd | .exbd | .film | .fild | .data => true
  | .adn | .sbn | .adw | .sbw | .srw | .slw => true
  | .jrnzp _ | .jrnzm _ | .jrncp _ | .jrncm _ | .jrp _ | .jrm _ => true
  | .jrzp _ | .jrzm _ | .jrcp _ | .jrcm _ => true
  | .jp _ | .jpnz _ | .jpnc _ | .jpz _ | .jpc _ | .loop _ => true
  | .call _ | .cal _ | .rtn | .ptj _ _ | .dtj => true
  | .ina | .inb | .outa | .outb | .outf | .outc | .test _ => true
  | .nopw | .nopt | .wait _ | .waiti => true
  | .writ => false
  | .undefined16 | .undefined17 | .undefined2E | .undefined33 | .undefined36 => false
  | .undefined3C | .undefined3D | .undefined3E | .undefined3F | .undefined5C | .undefined5E => false
  | .undefined68 | .undefined6A | .undefined6C | .undefined6D | .undefined6E | .undefined6F => false
  | .undefined72 | .undefined73 | .undefined76 | .undefined77 | .undefined7B => false
  | .undefinedCD | .undefinedCF | .undefinedD7 | .undefinedD9 | .undefinedDC | .undefinedDE => false

/-- A region of `MEMMAP` is not empty and lies on the external bus, &2000 to &FFFF (20_memory.md rule R74: the
window below is the internal ROM, "partie intégrante de la CPU"). -/
def Region.wellFormed (r : Region) : Bool :=
  decide (0x2000 ≤ r.base) && decide (0 < r.size) && decide (r.base + r.size ≤ 0x10000)

/-- A platform whose regions are all well formed. -/
def Platform.wellFormed (p : Platform) : Bool := p.memmap.all Region.wellFormed

end Sys2Proof
end

