-- ==== Sys2Proof/Safety.lean ====
section
/-! DEFINITION. The terms claims are stated in: what an instruction may write (the table of 10_state.md rule R43),
the invariant of a state, and what counts as a safe step. -/

namespace Sys2Proof.Machine

/-- The families of spec/INDEX.md. -/
inductive Family where
  | load
  | arith
  | count
  | block
  | control
  | port
  | undescribed
deriving DecidableEq, Repr

/-- The family of an instruction: the spec file its rule stands in. -/
def familyOf : Instr → Family
  | .lii _ | .lij _ | .lia _ | .lib _ | .lidp _ | .lidl _ | .lip _ | .liq _ | .lp _ => .load
  | .ldp | .ldq | .ldr | .ra | .stp | .stq | .str | .ldm | .ldd | .std | .mvdm | .mvmd => .load
  | .exab | .exam | .swp | .read | .readm | .push | .pop | .leave => .load
  | .adm | .sbm | .adcm | .sbcm | .adia _ | .sbia _ | .adim _ | .sbim _ | .adb | .sbb => .arith
  | .anma | .orma | .tsma | .cpma | .anim _ | .orim _ | .tsim _ | .cpim _ => .arith
  | .ania _ | .oria _ | .tsia _ | .cpia _ | .anid _ | .orid _ | .tsid _ => .arith
  | .sl | .sr | .sc | .rc => .arith
  | .inci | .deci | .incj | .decj | .inca | .deca | .incb | .decb => .count
  | .inck | .deck | .incl | .decl | .incm | .decm | .incn | .decn | .incp | .decp => .count
  | .ix | .dx | .iy | .dy | .ixl | .dxl | .iys | .dys => .count
  | .mvw | .mvb | .exw | .exb | .mvwd | .mvbd | .exwd | .exbd | .film | .fild | .data => .block
  | .adn | .sbn | .adw | .sbw | .srw | .slw => .block
  | .jrnzp _ | .jrnzm _ | .jrncp _ | .jrncm _ | .jrp _ | .jrm _ => .control
  | .jrzp _ | .jrzm _ | .jrcp _ | .jrcm _ => .control
  | .jp _ | .jpnz _ | .jpnc _ | .jpz _ | .jpc _ | .loop _ => .control
  | .call _ | .cal _ | .rtn | .ptj _ _ | .dtj => .control
  | .ina | .inb | .outa | .outb | .outf | .outc | .test _ => .port
  | .nopw | .nopt | .wait _ | .waiti => .port
  | .writ => .undescribed
  | .undefined16 | .undefined17 | .undefined2E | .undefined33 | .undefined36 => .undescribed
  | .undefined3C | .undefined3D | .undefined3E | .undefined3F | .undefined5C | .undefined5E => .undescribed
  | .undefined68 | .undefined6A | .undefined6C | .undefined6D | .undefined6E | .undefined6F => .undescribed
  | .undefined72 | .undefined73 | .undefined76 | .undefined77 | .undefined7B => .undescribed
  | .undefinedCD | .undefinedCF | .undefinedD7 | .undefinedD9 | .undefinedDC | .undefinedDE => .undescribed

/-! ### What an instruction may write -/

/-- A place of the state, as small as the machine writes it. The pc is not among them: every instruction writes it. -/
inductive Place where
  /-- an internal-RAM byte -/
  | iram (a : Ptr)
  /-- a byte of the program and data space -/
  | mem (a : Word)
  | p
  | q
  | r
  | dp
  | c
  | z
  | d
  | tj
  | latch (p : OutPort)
  | status
  | input (p : InPort)
  | testInput
  | outputs
  | draws
deriving DecidableEq, Repr

/-- The byte last driven on a port. -/
def State.latch (s : State) : OutPort → Byte
  | .ia => s.outIA
  | .ib => s.outIB
  | .f0 => s.outF0
  | .c => s.outC

/-- What the environment is still to supply on a port. -/
def State.pending (s : State) : InPort → List Byte
  | .ia => s.inIA
  | .ib => s.inIB

/-- The place holds in `t` what it holds in `s`. -/
def samePlace (s t : State) : Place → Prop
  | .iram a => t.iramGet a = s.iramGet a
  | .mem a => t.storedByte a = s.storedByte a
  | .p => t.p = s.p
  | .q => t.q = s.q
  | .r => t.r = s.r
  | .dp => t.dp = s.dp
  | .c => t.c = s.c
  | .z => t.z = s.z
  | .d => t.d = s.d
  | .tj => t.tj = s.tj
  | .latch o => t.latch o = s.latch o
  | .status => t.status = s.status
  | .input i => t.pending i = s.pending i
  | .testInput => t.inTest = s.inTest
  | .outputs => t.outputs = s.outputs
  | .draws => t.draws = s.draws

/-- The internal-RAM bytes a walk of `n + 1` steps up from `a` meets. -/
def cellsUp (a : Ptr) (n : Byte) : List Place :=
  (List.range (n.toNat + 1)).map fun k => .iram (a + BitVec.ofNat 7 k)

/-- The internal-RAM bytes a walk of `n + 1` steps down from `a` meets. -/
def cellsDown (a : Ptr) (n : Byte) : List Place :=
  (List.range (n.toNat + 1)).map fun k => .iram (a - BitVec.ofNat 7 k)

/-- The external bytes a walk of `n + 1` steps up from `a` meets. -/
def bytesUp (a : Word) (n : Byte) : List Place :=
  (List.range (n.toNat + 1)).map fun k => .mem (a + BitVec.ofNat 16 k)

/-- The place of a named register. -/
def regPlace (r : Reg) : Place := .iram (regAddr r)

/-- Every place the instruction may write when it is executed in `s` (10_state.md rules R36 and R43 and the
instruction's own rule): its destination, the flags its page lists, the pointers it steps, Q where it leaves an
address there, the scratch byte under the stack. `outputs` stands beside an external store, which a device may
answer, and `draws` beside an external read, which nothing may answer. -/
def mayWrite (i : Instr) (s : State) : List Place :=
  match i with
  | .lii _ => [regPlace .i]
  | .lij _ => [regPlace .j]
  | .lia _ => [regPlace .a]
  | .lib _ => [regPlace .b]
  | .lidp _ => [.dp]
  | .lidl _ => [.dp]
  | .lip _ => [.p]
  | .liq _ => [.q]
  | .lp _ => [.p]
  | .ldp => [regPlace .a]
  | .ldq => [regPlace .a]
  | .ldr => [regPlace .a]
  | .ra => [regPlace .a]
  | .stp => [.p]
  | .stq => [.q]
  | .str => [.r]
  | .ldm => [regPlace .a]
  | .ldd => [regPlace .a, .draws]
  | .std => [.mem s.dp, .outputs]
  | .mvdm => [.mem s.dp, .outputs]
  | .mvmd => [.iram s.p, .draws]
  | .exab => [regPlace .a, regPlace .b]
  | .exam => [regPlace .a, .iram s.p]
  | .swp => [regPlace .a]
  | .read => [regPlace .a, .draws]
  | .readm => [.iram s.p, .draws]
  | .push => [.r, .iram (s.r - 1)]
  | .pop => [regPlace .a, .r]
  | .leave => [.iram s.r]
  | .adm => [.iram s.p, .c, .z]
  | .sbm => [.iram s.p, .c, .z]
  | .adcm => [.iram s.p, .c, .z]
  | .sbcm => [.iram s.p, .c, .z]
  | .adia _ => [regPlace .a, .c, .z]
  | .sbia _ => [regPlace .a, .c, .z]
  | .adim _ => [.iram s.p, .c, .z]
  | .sbim _ => [.iram s.p, .c, .z]
  | .adb => [.iram s.p, .iram (s.p + 1), .p, .c, .z]
  | .sbb => [.iram s.p, .iram (s.p + 1), .p, .c, .z]
  | .anma => [.iram s.p, .z]
  | .orma => [.iram s.p, .z]
  | .tsma => [.z]
  | .cpma => [.c, .z]
  | .anim _ => [.iram s.p, .z]
  | .orim _ => [.iram s.p, .z]
  | .tsim _ => [.z]
  | .cpim _ => [.c, .z]
  | .ania _ => [regPlace .a, .z]
  | .oria _ => [regPlace .a, .z]
  | .tsia _ => [.z]
  | .cpia _ => [.c, .z]
  | .anid _ => [.mem s.dp, .outputs, .z, .iram (s.r - 1), .draws]
  | .orid _ => [.mem s.dp, .outputs, .z, .iram (s.r - 1), .draws]
  | .tsid _ => [.z, .iram (s.r - 1), .draws]
  | .sl => [regPlace .a, .c, .z]
  | .sr => [regPlace .a, .c]
  | .sc => [.c, .z]
  | .rc => [.c, .z]
  | .inci => [regPlace .i, .c, .z, .q]
  | .deci => [regPlace .i, .c, .z, .q]
  | .incj => [regPlace .j, .c, .z, .q]
  | .decj => [regPlace .j, .c, .z, .q]
  | .inca => [regPlace .a, .c, .z, .q]
  | .deca => [regPlace .a, .c, .z, .q]
  | .incb => [regPlace .b, .c, .z, .q]
  | .decb => [regPlace .b, .c, .z, .q]
  | .inck => [regPlace .k, .c, .z, .q]
  | .deck => [regPlace .k, .c, .z, .q]
  | .incl => [regPlace .l, .c, .z, .q]
  | .decl => [regPlace .l, .c, .z, .q]
  | .incm => [regPlace .m, .c, .z, .q]
  | .decm => [regPlace .m, .c, .z, .q]
  | .incn => [regPlace .n, .c, .z, .q]
  | .decn => [regPlace .n, .c, .z, .q]
  | .incp => [.p, .c, .z, .q, .draws]
  | .decp => [.p, .c, .z, .q, .draws]
  | .ix => [regPlace .xl, regPlace .xh, .dp, .q]
  | .dx => [regPlace .xl, regPlace .xh, .dp, .q]
  | .iy => [regPlace .yl, regPlace .yh, .dp, .q]
  | .dy => [regPlace .yl, regPlace .yh, .dp, .q]
  | .ixl => [regPlace .xl, regPlace .xh, .dp, .q, regPlace .a, .draws]
  | .dxl => [regPlace .xl, regPlace .xh, .dp, .q, regPlace .a, .draws]
  | .iys => [regPlace .yl, regPlace .yh, .dp, .q, .mem (s.y + 1), .outputs]
  | .dys => [regPlace .yl, regPlace .yh, .dp, .q, .mem (s.y - 1), .outputs]
  | .mvw => .p :: .q :: .d :: cellsUp s.p (s.reg .i)
  | .mvb => .p :: .q :: .d :: cellsUp s.p (s.reg .j)
  | .exw => .p :: .q :: .d :: cellsUp s.p (s.reg .i) ++ cellsUp s.q (s.reg .i)
  | .exb => .p :: .q :: .d :: cellsUp s.p (s.reg .j) ++ cellsUp s.q (s.reg .j)
  | .mvwd => .p :: .dp :: .d :: .draws :: cellsUp s.p (s.reg .i)
  | .mvbd => .p :: .dp :: .d :: .draws :: cellsUp s.p (s.reg .j)
  | .exwd => .p :: .dp :: .d :: .draws :: .outputs :: cellsUp s.p (s.reg .i) ++ bytesUp s.dp (s.reg .i)
  | .exbd => .p :: .dp :: .d :: .draws :: .outputs :: cellsUp s.p (s.reg .j) ++ bytesUp s.dp (s.reg .j)
  | .film => .p :: .d :: cellsUp s.p (s.reg .i)
  | .fild => .dp :: .d :: .outputs :: bytesUp s.dp (s.reg .i)
  | .data => .p :: .d :: .c :: .z :: .draws :: regPlace .a :: regPlace .b :: cellsUp s.p (s.reg .i)
  | .adn => .p :: .d :: .c :: .z :: .draws :: cellsDown s.p (s.reg .i)
  | .sbn => .p :: .d :: .c :: .z :: .draws :: cellsDown s.p (s.reg .i)
  | .adw => .p :: .q :: .d :: .c :: .z :: .draws :: cellsDown s.p (s.reg .i)
  | .sbw => .p :: .q :: .d :: .c :: .z :: .draws :: cellsDown s.p (s.reg .i)
  | .srw => .p :: .d :: cellsUp s.p (s.reg .i)
  | .slw => .p :: .d :: cellsDown s.p (s.reg .i)
  | .jrnzp _ => []
  | .jrnzm _ => []
  | .jrncp _ => []
  | .jrncm _ => []
  | .jrp _ => []
  | .jrm _ => []
  | .jrzp _ => []
  | .jrzm _ => []
  | .jrcp _ => []
  | .jrcm _ => []
  | .jp _ => []
  | .jpnz _ => []
  | .jpnc _ => []
  | .jpz _ => []
  | .jpc _ => []
  | .loop _ => [.iram s.r, .c, .z, .r]
  | .call _ => [.iram (s.r - 1), .iram (s.r - 2), .r]
  | .cal _ => [.iram (s.r - 1), .iram (s.r - 2), .r]
  | .rtn => [.r, .status]
  | .ptj _ _ => [.iram (s.r - 1), .iram (s.r - 2), .r, .tj]
  | .dtj => [.c, .z, .draws]
  | .ina => [regPlace .a, .z, .input .ia, .draws]
  | .inb => [regPlace .a, .z, .input .ib, .draws]
  | .outa => [.latch .ia, .outputs]
  | .outb => [.latch .ib, .outputs]
  | .outf => [.latch .f0, .outputs]
  | .outc => [.latch .c, .outputs, .status]
  | .test _ => [.z, .testInput, .draws]
  | .nopw => []
  | .nopt => []
  | .wait _ => []
  | .waiti => [.p, .z, .d, .draws]
  | .writ => []
  | .undefined16 => []
  | .undefined17 => []
  | .undefined2E => []
  | .undefined33 => []
  | .undefined36 => []
  | .undefined3C => []
  | .undefined3D => []
  | .undefined3E => []
  | .undefined3F => []
  | .undefined5C => []
  | .undefined5E => []
  | .undefined68 => []
  | .undefined6A => []
  | .undefined6C => []
  | .undefined6D => []
  | .undefined6E => []
  | .undefined6F => []
  | .undefined72 => []
  | .undefined73 => []
  | .undefined76 => []
  | .undefined77 => []
  | .undefined7B => []
  | .undefinedCD => []
  | .undefinedCF => []
  | .undefinedD7 => []
  | .undefinedD9 => []
  | .undefinedDC => []
  | .undefinedDE => []

/-- From `s` to `t` nothing changed but the places listed and the pc; the platform and the host's record of the run
are no instruction's to write. -/
def OnlyWrites (places : List Place) (s t : State) : Prop :=
  (∀ pl, pl ∉ places → samePlace s t pl) ∧ t.platform = s.platform ∧ t.hostR = s.hostR

/-! ### Invariant and safety -/

/-- A status that OUTC set agrees with the byte it put out (45_io_timing_misc.md rule R346). -/
def statusAgrees (s : State) : Prop :=
  match s.status with
  | .stopped .powerOff => controlOff s.outC = true
  | .stopped .clockHalted => controlOff s.outC = false ∧ controlHlt s.outC = true
  | .running => True
  | .returned => True

/-- What every step keeps: memory in its canonical form, and a stop that agrees with the control port. -/
def State.Inv (s : State) : Prop := s.mem.wf ∧ statusAgrees s

/-- The next step does not stop the model. -/
def stepSafe (s : State) : Prop := ∃ t, step s = .next t

/-- The encoding and the cycle count an instruction's page gives it (00_scope.md rule R14). -/
def HasHeader (i : Instr) (s : State) (bytes : List Byte) (cycles : Nat) : Prop :=
  encode i = bytes ∧ cycleCount i s = some cycles

/-- Both flags are as they were. -/
def FlagsKept (s t : State) : Prop := t.c = s.c ∧ t.z = s.z

/-! ### What a statement says of a result -/

/-- `value` is the sum of three numbers modulo 256, and in `t` C is its carry and Z its zero test (R170). -/
def IsSum (x y : Byte) (cin : Bool) (value : Byte) (t : State) : Prop :=
  value.toNat = (x.toNat + y.toNat + cin.toNat) % 256 ∧
  t.c = decide (255 < x.toNat + y.toNat + cin.toNat) ∧
  t.z = decide ((x.toNat + y.toNat + cin.toNat) % 256 = 0)

/-- The same for a difference, C its borrow (R170). -/
def IsDifference (x y : Byte) (bin : Bool) (value : Byte) (t : State) : Prop :=
  (value.toNat : Int) = ((x.toNat : Int) - y.toNat - bin.toNat) % 256 ∧
  t.c = decide (x.toNat < y.toNat + bin.toNat) ∧
  t.z = decide (((x.toNat : Int) - y.toNat - bin.toNat) % 256 = 0)

/-- The flags of a compare of `x` with `y`: C where `x` is below `y`, Z where they are equal (41_arithmetic_logic.md
rules R185, R189, R193). -/
def Compares (x y : Byte) (t : State) : Prop := t.c = decide (x.toNat < y.toNat) ∧ t.z = decide (x = y)

/-- Z is the zero test of `value`, and C is as it was (41_arithmetic_logic.md rule R171). -/
def ZeroFlagOnly (value : Byte) (s t : State) : Prop := t.z = decide (value = 0) ∧ t.c = s.c

/-- The address `k` bytes above `a` in internal RAM. -/
def up (a : Ptr) (k : Nat) : Ptr := a + BitVec.ofNat 7 k

/-- The address `k` bytes below `a` in internal RAM. -/
def down (a : Ptr) (k : Nat) : Ptr := a - BitVec.ofNat 7 k

/-- The address `k` bytes above `a` in the 16-bit space. -/
def above (a : Word) (k : Nat) : Word := a + BitVec.ofNat 16 k

/-- The internal-RAM addresses of a walk of `n + 1` steps up from `a` exist. -/
def State.existsUp (s : State) (a : Ptr) (n : Nat) : Prop := ∀ k ≤ n, s.implemented (up a k) = true

/-- The internal-RAM addresses of a walk of `n + 1` steps down from `a` exist. -/
def State.existsDown (s : State) (a : Ptr) (n : Nat) : Prop := ∀ k ≤ n, s.implemented (down a k) = true

/-- The number a string of `n + 1` packed-BCD bytes holds, its last byte at `a` (43_block_bcd.md rule R280). -/
def State.decimal (s : State) : Ptr → Nat → Nat
  | a, 0 => bcdValue (s.iramGet a)
  | a, n + 1 => bcdValue (s.iramGet a) + 100 * s.decimal (a - 1) n

/-- All digits of that string are decimal. -/
def State.isDecimal (s : State) (a : Ptr) (n : Nat) : Prop := ∀ k ≤ n, isBcd (s.iramGet (down a k)) = true

/-- The number a string of `n + 1` bytes holds in base 256, its last byte at `a`: two digits of base 16 a byte. -/
def State.digits (s : State) : Ptr → Nat → Nat
  | a, 0 => (s.iramGet a).toNat
  | a, n + 1 => (s.iramGet a).toNat + 256 * s.digits (a - 1) n

/-- The bytes memory holds at `a` and the three addresses after it, as many as the longest instruction has. -/
def State.window (s : State) (a : Word) : List Byte := (List.range 4).map fun k => s.storedByte (above a k)

end Sys2Proof.Machine
end

