-- ==== Sys2Proof/Certificates/Slice0/Obligations.lean ====
section
/-! DEFINITION. The statements for the provers. `n` bytes of a walk are counted from 0, so a block instruction whose
count register holds `n` walks over `n + 1` bytes (43_block_bcd.md rule R260). Where a statement's title says that it
rests on a choice of the model it names the log entry. -/

section

open Sys2Proof Sys2Proof.Machine

/-! ### Encoding -/

/-- Decoding the encoding of any instruction, whatever follows it, gives the instruction and what follows
(30_encoding.md rules R90 to R100). -/
def Obligations.DecodingAnEncodingGivesItBack : Prop :=
  ∀ (i : Instr) (rest : List Byte), decode (encode i ++ rest) = .ok (i, rest)

/-- The other direction: bytes that decode are the encoding of what they decode to, so each word has one meaning and
no bit of it is dropped. -/
def Obligations.DecodedBytesAreTheEncoding : Prop :=
  ∀ (bytes rest : List Byte) (i : Instr), decode bytes = .ok (i, rest) → encode i ++ rest = bytes

/-- The 29 first bytes without a description, and no others, decode to an instruction the spec does not describe
(30_encoding.md rules R101 and R102), whatever bytes follow. -/
def Obligations.UndescribedFirstBytes : Prop :=
  ∀ (b0 : Byte) (operands : List Byte),
    (decodeOpcode b0 operands).wellFormed = false ↔
      b0 ∈ [(0x16 : Byte), 0x17, 0x2E, 0x33, 0x36, 0x3C, 0x3D, 0x3E, 0x3F, 0x5C, 0x5E, 0x68, 0x6A, 0x6C, 0x6D, 0x6E,
            0x6F, 0x72, 0x73, 0x76, 0x77, 0x7B, 0xCD, 0xCF, 0xD3, 0xD7, 0xD9, 0xDC, 0xDE]

/-- Words of the spec's examples decode to the instructions they stand for, one of each format (R90 to R97). -/
def Obligations.SampleWordsDecode : Prop :=
  decode [0x59] = .ok (.ldm, []) ∧
  decode [0x85] = .ok (.lp 5, []) ∧
  decode [0x74, 0x12] = .ok (.adia 0x12, []) ∧
  decode [0xE5, 0xA2] = .ok (.cal 0x05A2, []) ∧
  decode [0x78, 0x05, 0xA2] = .ok (.call 0x05A2, []) ∧
  decode [0x10, 0x20, 0xFF] = .ok (.lidp 0x20FF, []) ∧
  decode [0x7A, 0x03, 0x40, 0x12] = .ok (.ptj 3 0x4012, []) ∧
  decode [0x69, 0x01] = .ok (.dtj, [0x01]) ∧
  decode [0x1E, 0x37] = .ok (.film, [0x37]) ∧
  decode [0x40] = .ok (.inci, []) ∧
  decode [0x6B, 0x08] = .ok (.test 8, [])

/-! ### The step, reset, the host -/

/-- A running machine runs the instruction whose bytes stand at pc (30_encoding.md rule R107): where the bytes memory
holds from pc on decode to `i`, and each of `i`'s own bytes is read from memory that holds it, the step is the
meaning of `i` in that very state. -/
def Obligations.StepRunsTheDecodedInstruction : Prop :=
  ∀ (s : State) (i : Instr) (rest : List Byte),
    s.status = .running → decode (s.window s.pc) = .ok (i, rest) →
    (∀ k < instrLength i, s.fetchable (above s.pc k) = true) → step s = exec i s

/-- A byte stored in RAM is seen by the next fetch (20_memory.md rule R73): code poked at pc runs at once. That no
prefetch stands between is the spec's own decision D7 (log entry 20). -/
def Obligations.PokedCodeRunsAtOnce : Prop :=
  ∀ (s : State) (i : Instr),
    s.status = .running → (∀ k < instrLength i, s.backing (above s.pc k) = .ram) →
    step (s.poke s.pc (encode i)) = exec i (s.poke s.pc (encode i))

/-- "Only Running states step" (10_state.md rule R42). -/
def Obligations.OnlyRunningStatesStep : Prop :=
  ∀ s : State, s.status ≠ .running → step s = .fault (.notRunning s.status)

/-- The two values R410 states for reset: the status is Running and TJ is unset. -/
def Obligations.ResetIsRunningWithTJUnset : Prop :=
  State.reset.status = .running ∧ State.reset.tj = none

/-- The state after reset satisfies the invariant every step keeps. -/
def Obligations.ResetSatisfiesTheInvariant : Prop := State.reset.Inv

/-- The entry state of 70_reset_and_hazards.md rule R414: pc at the address called, the host's return address at R and
R + 1, low byte first, TJ unset, everything else as it was; and an RTN executed with R at its entry value takes pc to
that address, leaves R two up, and ends the run (R415 a). The end of a run is the spec's own decision D12, its form the
model's (log entries 8 and 28). -/
def Obligations.HostEntryAndReturn : Prop :=
  ∀ (s : State) (addr returnTo : Word) (r : Ptr),
    (s.hostEntry addr returnTo r).pc = addr ∧ (s.hostEntry addr returnTo r).r = r ∧
    (s.hostEntry addr returnTo r).iramGet r = loByte returnTo ∧
    (s.hostEntry addr returnTo r).iramGet (r + 1) = hiByte returnTo ∧
    (s.hostEntry addr returnTo r).tj = none ∧ (s.hostEntry addr returnTo r).status = .running ∧
    (s.hostEntry addr returnTo).r = 0x50 ∧
    (s.implemented r = true → s.implemented (r + 1) = true →
      ∃ t, exec .rtn (s.hostEntry addr returnTo r) = .next t ∧
        t.status = .returned ∧ t.r = r + 2 ∧ t.pc = returnTo)

/-! ### Loads, stores, moves, the stack -/

/-- The nine immediate loads (40_load_transfer.md rules R121 to R129), with their encodings and cycle counts. That LIP
and LIQ drop bit 7 is the spec's own decision D3 (log entry 12). -/
def Obligations.ImmediateLoads : Prop :=
  ∀ (s : State) (n : Byte) (nm : Word) (l : BitVec 6),
    (∃ t, exec (.lii n) s = .next t ∧ t.reg .i = n ∧ t.pc = s.pc + 2 ∧ FlagsKept s t) ∧
    (∃ t, exec (.lij n) s = .next t ∧ t.reg .j = n ∧ t.pc = s.pc + 2 ∧ FlagsKept s t) ∧
    (∃ t, exec (.lia n) s = .next t ∧ t.reg .a = n ∧ t.pc = s.pc + 2 ∧ FlagsKept s t) ∧
    (∃ t, exec (.lib n) s = .next t ∧ t.reg .b = n ∧ t.pc = s.pc + 2 ∧ FlagsKept s t) ∧
    (∃ t, exec (.lidp nm) s = .next t ∧ t.dp = nm ∧ t.pc = s.pc + 3 ∧ FlagsKept s t) ∧
    (∃ t, exec (.lidl n) s = .next t ∧ hiByte t.dp = hiByte s.dp ∧ loByte t.dp = n ∧ t.pc = s.pc + 2 ∧
      FlagsKept s t) ∧
    (∃ t, exec (.lip n) s = .next t ∧ t.p.toNat = n.toNat % 128 ∧ t.pc = s.pc + 2 ∧ FlagsKept s t) ∧
    (∃ t, exec (.liq n) s = .next t ∧ t.q.toNat = n.toNat % 128 ∧ t.pc = s.pc + 2 ∧ FlagsKept s t) ∧
    (∃ t, exec (.lp l) s = .next t ∧ t.p.toNat = l.toNat ∧ t.pc = s.pc + 1 ∧ FlagsKept s t) ∧
    HasHeader (.lii n) s [0x00, n] 4 ∧ HasHeader (.lij n) s [0x01, n] 4 ∧ HasHeader (.lia n) s [0x02, n] 4 ∧
    HasHeader (.lib n) s [0x03, n] 4 ∧ HasHeader (.lidp nm) s [0x10, hiByte nm, loByte nm] 8 ∧
    HasHeader (.lidl n) s [0x11, n] 5 ∧ HasHeader (.lip n) s [0x12, n] 4 ∧ HasHeader (.liq n) s [0x13, n] 4 ∧
    HasHeader (.lp l) s [0b10#2 ++ l] 2

/-- Transfers between A and P, Q, R, and the two exchanges inside A and B (40_load_transfer.md rules R130 to R136,
R142, R144). That bit 7 is dropped on the way in and 0 on the way out is the spec's own decision D3 (log entry 12). -/
def Obligations.RegisterTransfers : Prop :=
  ∀ s : State,
    (∃ t, exec .ldp s = .next t ∧ (t.reg .a).toNat = s.p.toNat ∧ t.pc = s.pc + 1 ∧ FlagsKept s t) ∧
    (∃ t, exec .ldq s = .next t ∧ (t.reg .a).toNat = s.q.toNat ∧ t.pc = s.pc + 1 ∧ FlagsKept s t) ∧
    (∃ t, exec .ldr s = .next t ∧ (t.reg .a).toNat = s.r.toNat ∧ t.pc = s.pc + 1 ∧ FlagsKept s t) ∧
    (∃ t, exec .ra s = .next t ∧ t.reg .a = 0 ∧ t.pc = s.pc + 1 ∧ FlagsKept s t) ∧
    (∃ t, exec .stp s = .next t ∧ t.p.toNat = (s.reg .a).toNat % 128 ∧ t.pc = s.pc + 1 ∧ FlagsKept s t) ∧
    (∃ t, exec .stq s = .next t ∧ t.q.toNat = (s.reg .a).toNat % 128 ∧ t.pc = s.pc + 1 ∧ FlagsKept s t) ∧
    (∃ t, exec .str s = .next t ∧ t.r.toNat = (s.reg .a).toNat % 128 ∧ t.pc = s.pc + 1 ∧ FlagsKept s t) ∧
    (∃ t, exec .exab s = .next t ∧ t.reg .a = s.reg .b ∧ t.reg .b = s.reg .a ∧ t.pc = s.pc + 1 ∧
      FlagsKept s t) ∧
    (∃ t, exec .swp s = .next t ∧ (t.reg .a).toNat = (s.reg .a).toNat % 16 * 16 + (s.reg .a).toNat / 16 ∧
      t.pc = s.pc + 1 ∧ FlagsKept s t) ∧
    HasHeader .ldp s [0x20] 2 ∧ HasHeader .ldq s [0x21] 2 ∧ HasHeader .ldr s [0x22] 2 ∧ HasHeader .ra s [0x23] 2 ∧
    HasHeader .stp s [0x30] 2 ∧ HasHeader .stq s [0x31] 2 ∧ HasHeader .str s [0x32] 2 ∧
    HasHeader .exab s [0xDA] 5 ∧ HasHeader .swp s [0x58] 2

/-- Moves inside the CPU: LDM, EXAM, PUSH, POP, LEAVE (40_load_transfer.md rules R137, R143, R147 to R149), where the
address used exists. That R wraps modulo 128 is the spec's own decision D3 (log entry 12). -/
def Obligations.InternalMovesAndStack : Prop :=
  ∀ s : State,
    (s.implemented s.p = true →
      ∃ t, exec .ldm s = .next t ∧ t.reg .a = s.iramGet s.p ∧ t.pc = s.pc + 1 ∧ FlagsKept s t) ∧
    (s.implemented s.p = true →
      ∃ t, exec .exam s = .next t ∧ t.reg .a = s.iramGet s.p ∧ t.iramGet s.p = s.reg .a ∧ t.pc = s.pc + 1 ∧
        FlagsKept s t) ∧
    (s.implemented (s.r - 1) = true →
      ∃ t, exec .push s = .next t ∧ t.r = s.r - 1 ∧ t.iramGet (s.r - 1) = s.reg .a ∧ t.pc = s.pc + 1 ∧
        FlagsKept s t) ∧
    (s.implemented s.r = true →
      ∃ t, exec .pop s = .next t ∧ t.reg .a = s.iramGet s.r ∧ t.r = s.r + 1 ∧ t.pc = s.pc + 1 ∧
        FlagsKept s t) ∧
    (s.implemented s.r = true →
      ∃ t, exec .leave s = .next t ∧ t.iramGet s.r = 0 ∧ t.r = s.r ∧ t.pc = s.pc + 1 ∧ FlagsKept s t) ∧
    HasHeader .ldm s [0x59] 2 ∧ HasHeader .exam s [0xDB] 3 ∧ HasHeader .push s [0x34] 3 ∧
    HasHeader .pop s [0x5B] 2 ∧ HasHeader .leave s [0xD8] 2

/-- Moves over the external bus and from the instruction stream: LDD, STD, MVDM, MVMD, READ, READM
(40_load_transfer.md rules R138 to R141, R145, R146), in terms of the three accesses that
`AccessesByWhatAnswers` describes. READ and READM are one byte long: pc moves to the byte they read. -/
def Obligations.ExternalMoves : Prop :=
  ∀ s : State,
    (∃ t, exec .ldd s = .next t ∧ t.reg .a = (s.memRead s.dp).1 ∧ t.pc = s.pc + 1 ∧ FlagsKept s t) ∧
    (∃ t, exec .std s = .next t ∧ t.mem = (s.memWrite s.dp (s.reg .a)).mem ∧
      t.outputs = (s.memWrite s.dp (s.reg .a)).outputs ∧ t.pc = s.pc + 1 ∧ FlagsKept s t) ∧
    (s.implemented s.p = true →
      ∃ t, exec .mvdm s = .next t ∧ t.mem = (s.memWrite s.dp (s.iramGet s.p)).mem ∧
        t.outputs = (s.memWrite s.dp (s.iramGet s.p)).outputs ∧ t.p = s.p ∧ t.dp = s.dp ∧ t.pc = s.pc + 1 ∧
        FlagsKept s t) ∧
    (s.implemented s.p = true →
      ∃ t, exec .mvmd s = .next t ∧ t.iramGet s.p = (s.memRead s.dp).1 ∧ t.p = s.p ∧ t.dp = s.dp ∧
        t.pc = s.pc + 1 ∧ FlagsKept s t) ∧
    (∃ t, exec .read s = .next t ∧ t.reg .a = (s.codeRead (s.pc + 1)).1 ∧ t.pc = s.pc + 1 ∧ FlagsKept s t) ∧
    (s.implemented s.p = true →
      ∃ t, exec .readm s = .next t ∧ t.iramGet s.p = (s.codeRead (s.pc + 1)).1 ∧ t.pc = s.pc + 1 ∧
        FlagsKept s t) ∧
    HasHeader .ldd s [0x57] 3 ∧ HasHeader .std s [0x52] 2 ∧ HasHeader .mvdm s [0x53] 3 ∧
    HasHeader .mvmd s [0x55] 3 ∧ HasHeader .read s [0x56] 3 ∧ HasHeader .readm s [0x54] 3

/-- What each access to the 16-bit spaces does, by what answers at the address (20_memory.md rules R62 to R65): below
&2000 the internal ROM, above it what MEMMAP places there. The high byte read below &2000 and the lost writes are the
spec's own decisions D5 and D6 (log entries 10 and 11). -/
def Obligations.AccessesByWhatAnswers : Prop :=
  ∀ (s : State) (a : Word) (v : Byte),
    (s.backing a = .internalRom ↔ a.toNat < 0x2000) ∧
    (s.backing a = .internalRom →
      s.memRead a = (hiByte a, s) ∧ s.codeRead a = (s.storedByte a, s) ∧ s.memWrite a v = s) ∧
    (s.backing a = .ram →
      s.memRead a = (s.storedByte a, s) ∧ s.codeRead a = (s.storedByte a, s) ∧
      s.memWrite a v = s.storeByte a v ∧ (s.memWrite a v).storedByte a = v) ∧
    (s.backing a = .rom →
      s.memRead a = (s.storedByte a, s) ∧ s.codeRead a = (s.storedByte a, s) ∧ s.memWrite a v = s) ∧
    (s.backing a = .device →
      s.memRead a = (Config.anyByte s.draws, { s with draws := s.draws + 1 }) ∧
      s.codeRead a = (Config.anyByte s.draws, { s with draws := s.draws + 1 }) ∧
      s.memWrite a v = { s with outputs := s.outputs ++ [OutEvent.device a v] }) ∧
    (s.backing a = .nothing →
      s.memRead a = (Config.anyByte s.draws, { s with draws := s.draws + 1 }) ∧
      s.codeRead a = (Config.anyByte s.draws, { s with draws := s.draws + 1 }) ∧ s.memWrite a v = s)

/-- "a store followed by a load of the same address returns the stored byte" (20_memory.md rule R71), and a load of any
other address returns what it returned before; a write of one byte of internal RAM reads back likewise. That there is
one agent and no cache is the spec's own decision D7 (log entry 20). -/
def Obligations.LoadsReturnTheLastStore : Prop :=
  ∀ (s : State) (a b : Word) (v : Byte) (x y : Ptr),
    (s.backing a = .ram → ((s.memWrite a v).memRead a).1 = v ∧ ((s.memWrite a v).codeRead a).1 = v) ∧
    (b ≠ a → ((s.memWrite a v).memRead b).1 = (s.memRead b).1 ∧
      ((s.memWrite a v).codeRead b).1 = (s.codeRead b).1) ∧
    (s.implemented x = true →
      ∃ t, s.writeIram x v = .ok t ∧ t.readIram x = .ok v ∧ (y ≠ x → t.readIram y = s.readIram y))

/-- The stack undoes itself: POP after PUSH and RTN after CALL or CAL give R back (10_state.md rule R32,
44_control_flow.md rule R325); POP gives A back, RTN goes on after the call. The RTN here is one that does not pop the
host's own return address. That an RTN can end the run is the spec's own decision D12 (log entry 8). -/
def Obligations.StackUndoesItself : Prop :=
  ∀ (s t : State) (nm : Word) (ln : BitVec 13),
    (exec .push s = .next t →
      ∃ u, exec .pop t = .next u ∧ u.r = s.r ∧ u.reg .a = s.reg .a ∧ u.pc = s.pc + 2) ∧
    (exec (.call nm) s = .next t → s.hostR ≠ some (s.r - 2) →
      ∃ u, exec .rtn t = .next u ∧ u.r = s.r ∧ u.pc = s.pc + 3 ∧ u.status = s.status ∧ FlagsKept s u) ∧
    (exec (.cal ln) s = .next t → s.hostR ≠ some (s.r - 2) →
      ∃ u, exec .rtn t = .next u ∧ u.r = s.r ∧ u.pc = s.pc + 2 ∧ u.status = s.status ∧ FlagsKept s u)

/-! ### Arithmetic and logic -/

/-- Binary addition and subtraction on (P) (41_arithmetic_logic.md rules R170, R172 to R175, R178, R179), where (P)
exists: the byte, C as carry or borrow, Z. That only ADCM and SBCM take C in is the spec's own decision D10 (log entry
13). -/
def Obligations.AddAndSubtractOnP : Prop :=
  ∀ (s : State) (n : Byte), s.implemented s.p = true →
    (∃ t, exec .adm s = .next t ∧ IsSum (s.iramGet s.p) (s.reg .a) false (t.iramGet s.p) t ∧ t.pc = s.pc + 1) ∧
    (∃ t, exec .sbm s = .next t ∧ IsDifference (s.iramGet s.p) (s.reg .a) false (t.iramGet s.p) t ∧
      t.pc = s.pc + 1) ∧
    (∃ t, exec .adcm s = .next t ∧ IsSum (s.iramGet s.p) (s.reg .a) s.c (t.iramGet s.p) t ∧ t.pc = s.pc + 1) ∧
    (∃ t, exec .sbcm s = .next t ∧ IsDifference (s.iramGet s.p) (s.reg .a) s.c (t.iramGet s.p) t ∧
      t.pc = s.pc + 1) ∧
    (∃ t, exec (.adim n) s = .next t ∧ IsSum (s.iramGet s.p) n false (t.iramGet s.p) t ∧ t.pc = s.pc + 2) ∧
    (∃ t, exec (.sbim n) s = .next t ∧ IsDifference (s.iramGet s.p) n false (t.iramGet s.p) t ∧
      t.pc = s.pc + 2) ∧
    HasHeader .adm s [0x44] 3 ∧ HasHeader .sbm s [0x45] 3 ∧ HasHeader .adcm s [0xC4] 3 ∧
    HasHeader .sbcm s [0xC5] 3 ∧ HasHeader (.adim n) s [0x70, n] 4 ∧ HasHeader (.sbim n) s [0x71, n] 4

/-- Addition and subtraction of a constant to A (41_arithmetic_logic.md rules R176 and R177). That neither takes C in
is the spec's own decision D10 (log entry 13). -/
def Obligations.AddAndSubtractOnA : Prop :=
  ∀ (s : State) (n : Byte),
    (∃ t, exec (.adia n) s = .next t ∧ IsSum (s.reg .a) n false (t.reg .a) t ∧ t.pc = s.pc + 2) ∧
    (∃ t, exec (.sbia n) s = .next t ∧ IsDifference (s.reg .a) n false (t.reg .a) t ∧ t.pc = s.pc + 2) ∧
    HasHeader (.adia n) s [0x74, n] 4 ∧ HasHeader (.sbia n) s [0x75, n] 4

/-- The 16-bit sum and difference of ADB and SBB (41_arithmetic_logic.md rules R180 and R181), where (P) and (P+1)
exist: memory low byte first, Z over all sixteen bits, P left at the high byte. That Z looks at all sixteen bits is the
spec's own decision D10 (log entry 13). -/
def Obligations.SixteenBitAddAndSubtract : Prop :=
  ∀ s : State, s.implemented s.p = true → s.implemented (s.p + 1) = true →
    (∃ t, exec .adb s = .next t ∧
      (joinBytes (t.iramGet (s.p + 1)) (t.iramGet s.p)).toNat =
        ((joinBytes (s.iramGet (s.p + 1)) (s.iramGet s.p)).toNat + s.ba.toNat) % 65536 ∧
      t.c = decide (65535 < (joinBytes (s.iramGet (s.p + 1)) (s.iramGet s.p)).toNat + s.ba.toNat) ∧
      t.z = decide (joinBytes (t.iramGet (s.p + 1)) (t.iramGet s.p) = 0) ∧ t.p = s.p + 1 ∧ t.pc = s.pc + 1) ∧
    (∃ t, exec .sbb s = .next t ∧
      ((joinBytes (t.iramGet (s.p + 1)) (t.iramGet s.p)).toNat : Int) =
        ((joinBytes (s.iramGet (s.p + 1)) (s.iramGet s.p)).toNat - s.ba.toNat : Int) % 65536 ∧
      t.c = decide ((joinBytes (s.iramGet (s.p + 1)) (s.iramGet s.p)).toNat < s.ba.toNat) ∧
      t.z = decide (joinBytes (t.iramGet (s.p + 1)) (t.iramGet s.p) = 0) ∧ t.p = s.p + 1 ∧ t.pc = s.pc + 1) ∧
    HasHeader .adb s [0x14] 5 ∧ HasHeader .sbb s [0x15] 5

/-- Logic, tests and compares on (P) (41_arithmetic_logic.md rules R171, R182 to R189), where (P) exists: logic and
tests write Z alone; tests and compares leave (P) as it was. -/
def Obligations.LogicAndComparesOnP : Prop :=
  ∀ (s : State) (n : Byte), s.implemented s.p = true →
    (∃ t, exec .anma s = .next t ∧ t.iramGet s.p = s.iramGet s.p &&& s.reg .a ∧
      ZeroFlagOnly (s.iramGet s.p &&& s.reg .a) s t ∧ t.pc = s.pc + 1) ∧
    (∃ t, exec .orma s = .next t ∧ t.iramGet s.p = s.iramGet s.p ||| s.reg .a ∧
      ZeroFlagOnly (s.iramGet s.p ||| s.reg .a) s t ∧ t.pc = s.pc + 1) ∧
    (∃ t, exec .tsma s = .next t ∧ t.iram = s.iram ∧ ZeroFlagOnly (s.iramGet s.p &&& s.reg .a) s t ∧
      t.pc = s.pc + 1) ∧
    (∃ t, exec .cpma s = .next t ∧ t.iram = s.iram ∧ Compares (s.iramGet s.p) (s.reg .a) t ∧ t.pc = s.pc + 1) ∧
    (∃ t, exec (.anim n) s = .next t ∧ t.iramGet s.p = s.iramGet s.p &&& n ∧
      ZeroFlagOnly (s.iramGet s.p &&& n) s t ∧ t.pc = s.pc + 2) ∧
    (∃ t, exec (.orim n) s = .next t ∧ t.iramGet s.p = s.iramGet s.p ||| n ∧
      ZeroFlagOnly (s.iramGet s.p ||| n) s t ∧ t.pc = s.pc + 2) ∧
    (∃ t, exec (.tsim n) s = .next t ∧ t.iram = s.iram ∧ ZeroFlagOnly (s.iramGet s.p &&& n) s t ∧
      t.pc = s.pc + 2) ∧
    (∃ t, exec (.cpim n) s = .next t ∧ t.iram = s.iram ∧ Compares (s.iramGet s.p) n t ∧ t.pc = s.pc + 2) ∧
    HasHeader .anma s [0x46] 3 ∧ HasHeader .orma s [0x47] 3 ∧ HasHeader .tsma s [0xC6] 3 ∧
    HasHeader .cpma s [0xC7] 3 ∧ HasHeader (.anim n) s [0x60, n] 4 ∧ HasHeader (.orim n) s [0x61, n] 4 ∧
    HasHeader (.tsim n) s [0x62, n] 4 ∧ HasHeader (.cpim n) s [0x63, n] 4

/-- The same on A with a constant (41_arithmetic_logic.md rules R190 to R193). -/
def Obligations.LogicAndComparesOnA : Prop :=
  ∀ (s : State) (n : Byte),
    (∃ t, exec (.ania n) s = .next t ∧ t.reg .a = s.reg .a &&& n ∧ ZeroFlagOnly (s.reg .a &&& n) s t ∧
      t.pc = s.pc + 2) ∧
    (∃ t, exec (.oria n) s = .next t ∧ t.reg .a = s.reg .a ||| n ∧ ZeroFlagOnly (s.reg .a ||| n) s t ∧
      t.pc = s.pc + 2) ∧
    (∃ t, exec (.tsia n) s = .next t ∧ t.iram = s.iram ∧ ZeroFlagOnly (s.reg .a &&& n) s t ∧ t.pc = s.pc + 2) ∧
    (∃ t, exec (.cpia n) s = .next t ∧ t.iram = s.iram ∧ Compares (s.reg .a) n t ∧ t.pc = s.pc + 2) ∧
    HasHeader (.ania n) s [0x64, n] 4 ∧ HasHeader (.oria n) s [0x65, n] 4 ∧ HasHeader (.tsia n) s [0x66, n] 4 ∧
    HasHeader (.cpia n) s [0x67, n] 4

/-- Logic on (DP) (41_arithmetic_logic.md rules R194 to R196), where the scratch byte under the stack top exists: the
byte read is combined with the constant, Z alone is written, the result goes back to (DP) but for TSID, which leaves
external memory as it was. That ANID too uses the scratch byte is the spec's own decision D16 (log entry 15). -/
def Obligations.LogicOnDp : Prop :=
  ∀ (s : State) (n : Byte), s.implemented (s.r - 1) = true →
    (∃ t, exec (.anid n) s = .next t ∧ t.mem = (s.memWrite s.dp ((s.memRead s.dp).1 &&& n)).mem ∧
      t.outputs = (s.memWrite s.dp ((s.memRead s.dp).1 &&& n)).outputs ∧
      ZeroFlagOnly ((s.memRead s.dp).1 &&& n) s t ∧ t.dp = s.dp ∧ t.r = s.r ∧ t.pc = s.pc + 2) ∧
    (∃ t, exec (.orid n) s = .next t ∧ t.mem = (s.memWrite s.dp ((s.memRead s.dp).1 ||| n)).mem ∧
      t.outputs = (s.memWrite s.dp ((s.memRead s.dp).1 ||| n)).outputs ∧
      ZeroFlagOnly ((s.memRead s.dp).1 ||| n) s t ∧ t.dp = s.dp ∧ t.r = s.r ∧ t.pc = s.pc + 2) ∧
    (∃ t, exec (.tsid n) s = .next t ∧ t.mem = s.mem ∧ t.outputs = s.outputs ∧
      ZeroFlagOnly ((s.memRead s.dp).1 &&& n) s t ∧ t.dp = s.dp ∧ t.r = s.r ∧ t.pc = s.pc + 2) ∧
    HasHeader (.anid n) s [0xD4, n] 6 ∧ HasHeader (.orid n) s [0xD5, n] 6 ∧ HasHeader (.tsid n) s [0xD6, n] 6

/-- The two rotations of A through carry and the two carry instructions (41_arithmetic_logic.md rules R197 to R200): SR
leaves Z, SC and RC set it. That SL sets Z from A is the spec's own decision D10 (log entry 13). -/
def Obligations.RotationsAndCarry : Prop :=
  ∀ s : State,
    (∃ t, exec .sl s = .next t ∧ (t.reg .a).toNat = (s.reg .a).toNat * 2 % 256 + s.c.toNat ∧
      t.c = decide (128 ≤ (s.reg .a).toNat) ∧ t.z = decide (t.reg .a = 0) ∧ t.pc = s.pc + 1) ∧
    (∃ t, exec .sr s = .next t ∧ (t.reg .a).toNat = (s.reg .a).toNat / 2 + 128 * s.c.toNat ∧
      t.c = decide ((s.reg .a).toNat % 2 = 1) ∧ t.z = s.z ∧ t.pc = s.pc + 1) ∧
    (∃ t, exec .sc s = .next t ∧ t.c = true ∧ t.z = true ∧ t.pc = s.pc + 1) ∧
    (∃ t, exec .rc s = .next t ∧ t.c = false ∧ t.z = true ∧ t.pc = s.pc + 1) ∧
    HasHeader .sl s [0x5A] 2 ∧ HasHeader .sr s [0xD2] 2 ∧ HasHeader .sc s [0xD0] 2 ∧ HasHeader .rc s [0xD1] 2

/-! ### Increments, decrements, pointer steps -/

/-- The sixteen increments and decrements (42_inc_dec_pointer.md rule R220): the register plus or minus 1 with C and Z,
and the register's address left in Q. That C and Z follow the add and subtract rule is the spec's own decision D10 (log
entry 13). -/
def Obligations.IncrementsAndDecrements : Prop :=
  ∀ (s : State) (inc dec : Instr) (g : Reg) (b : Byte),
    (inc, dec, g, b) ∈
      [(Instr.inci, Instr.deci, Reg.i, (0x40 : Byte)), (.incj, .decj, .j, 0xC0), (.inca, .deca, .a, 0x42),
       (.incb, .decb, .b, 0xC2), (.inck, .deck, .k, 0x48), (.incl, .decl, .l, 0xC8), (.incm, .decm, .m, 0x4A),
       (.incn, .decn, .n, 0xCA)] →
    (∃ t, exec inc s = .next t ∧ IsSum (s.reg g) 1 false (t.reg g) t ∧ t.q = regAddr g ∧ t.p = s.p ∧
      t.pc = s.pc + 1) ∧
    (∃ t, exec dec s = .next t ∧ IsDifference (s.reg g) 1 false (t.reg g) t ∧ t.q = regAddr g ∧ t.p = s.p ∧
      t.pc = s.pc + 1) ∧
    HasHeader inc s [b] 4 ∧ HasHeader dec s [b + 1] 4

/-- INCP and DECP (42_inc_dec_pointer.md rules R237 and R238): P one up or one down modulo 128; C, Z and Q are left
open, and nothing is said of them. That P wraps is the spec's own decision D3, what is open its decision D11 (log
entries 12 and 14). -/
def Obligations.PointerPSteps : Prop :=
  ∀ s : State,
    (∃ t, exec .incp s = .next t ∧ t.p.toNat = (s.p.toNat + 1) % 128 ∧ t.pc = s.pc + 1) ∧
    (∃ t, exec .decp s = .next t ∧ t.p.toNat = (s.p.toNat + 127) % 128 ∧ t.pc = s.pc + 1) ∧
    HasHeader .incp s [0x50] 2 ∧ HasHeader .decp s [0x51] 2

/-- The pointer steps of X and Y (42_inc_dec_pointer.md rules R239 to R247): the pair and DP take the new value, Q the
address of the pair's high byte; IXL and DXL then load A from there, IYS and DYS store A there. That the pairs wrap
modulo 65536 is the spec's own decision D2 (log entry 12). -/
def Obligations.PointerXAndYSteps : Prop :=
  ∀ s : State,
    (∃ t, exec .ix s = .next t ∧ t.x = s.x + 1 ∧ t.dp = s.x + 1 ∧ t.q = 5 ∧ t.pc = s.pc + 1 ∧ FlagsKept s t) ∧
    (∃ t, exec .dx s = .next t ∧ t.x = s.x - 1 ∧ t.dp = s.x - 1 ∧ t.q = 5 ∧ t.pc = s.pc + 1 ∧ FlagsKept s t) ∧
    (∃ t, exec .iy s = .next t ∧ t.y = s.y + 1 ∧ t.dp = s.y + 1 ∧ t.q = 7 ∧ t.pc = s.pc + 1 ∧ FlagsKept s t) ∧
    (∃ t, exec .dy s = .next t ∧ t.y = s.y - 1 ∧ t.dp = s.y - 1 ∧ t.q = 7 ∧ t.pc = s.pc + 1 ∧ FlagsKept s t) ∧
    (∃ t, exec .ixl s = .next t ∧ t.x = s.x + 1 ∧ t.dp = s.x + 1 ∧ t.q = 5 ∧
      t.reg .a = (s.memRead (s.x + 1)).1 ∧ t.pc = s.pc + 1 ∧ FlagsKept s t) ∧
    (∃ t, exec .dxl s = .next t ∧ t.x = s.x - 1 ∧ t.dp = s.x - 1 ∧ t.q = 5 ∧
      t.reg .a = (s.memRead (s.x - 1)).1 ∧ t.pc = s.pc + 1 ∧ FlagsKept s t) ∧
    (∃ t, exec .iys s = .next t ∧ t.y = s.y + 1 ∧ t.dp = s.y + 1 ∧ t.q = 7 ∧
      t.mem = (s.memWrite (s.y + 1) (s.reg .a)).mem ∧ t.outputs = (s.memWrite (s.y + 1) (s.reg .a)).outputs ∧
      t.pc = s.pc + 1 ∧ FlagsKept s t) ∧
    (∃ t, exec .dys s = .next t ∧ t.y = s.y - 1 ∧ t.dp = s.y - 1 ∧ t.q = 7 ∧
      t.mem = (s.memWrite (s.y - 1) (s.reg .a)).mem ∧ t.outputs = (s.memWrite (s.y - 1) (s.reg .a)).outputs ∧
      t.pc = s.pc + 1 ∧ FlagsKept s t) ∧
    HasHeader .ix s [0x04] 6 ∧ HasHeader .dx s [0x05] 6 ∧ HasHeader .iy s [0x06] 6 ∧ HasHeader .dy s [0x07] 6 ∧
    HasHeader .ixl s [0x24] 7 ∧ HasHeader .dxl s [0x25] 7 ∧ HasHeader .iys s [0x26] 6 ∧ HasHeader .dys s [0x27] 6

/-! ### Blocks -/

/-- MVW and MVB (43_block_bcd.md rules R260 to R262): they complete wherever both ranges exist, step P and Q once for
each byte, leave d at &FF and the flags as they were; and where no source byte is overwritten before it is read, and
the destination does not meet itself, each byte of the source is copied. -/
def Obligations.MoveBlockCopies : Prop :=
  ∀ (s : State) (i : Instr) (count : Reg) (n : Nat), (i, count) ∈ [(Instr.mvw, Reg.i), (.mvb, .j)] →
    n = (s.reg count).toNat → s.existsUp s.p n → s.existsUp s.q n →
    ∃ t, exec i s = .next t ∧ t.p = up s.p (n + 1) ∧ t.q = up s.q (n + 1) ∧ t.d = 0xFF ∧ t.pc = s.pc + 1 ∧
      FlagsKept s t ∧
      (n < 128 → (∀ j k, j < k → k ≤ n → up s.p j ≠ up s.q k) →
        ∀ k ≤ n, t.iramGet (up s.p k) = s.iramGet (up s.q k))

/-- "MVW with P = Q + 1 smears the first byte over the whole range" (43_block_bcd.md rule R260), for every count. -/
def Obligations.MoveBlockSmears : Prop :=
  ∀ (s : State) (i : Instr) (count : Reg) (n : Nat), (i, count) ∈ [(Instr.mvw, Reg.i), (.mvb, .j)] →
    n = (s.reg count).toNat → s.existsUp s.p n → s.existsUp s.q n → s.p = s.q + 1 →
    ∃ t, exec i s = .next t ∧ ∀ k ≤ n, t.iramGet (up s.p k) = s.iramGet s.q

/-- EXW and EXB (43_block_bcd.md rules R263 and R264): they complete wherever both ranges exist, and two ranges that
do not meet change places. -/
def Obligations.ExchangeBlockSwaps : Prop :=
  ∀ (s : State) (i : Instr) (count : Reg) (n : Nat), (i, count) ∈ [(Instr.exw, Reg.i), (.exb, .j)] →
    n = (s.reg count).toNat → s.existsUp s.p n → s.existsUp s.q n →
    ∃ t, exec i s = .next t ∧ t.p = up s.p (n + 1) ∧ t.q = up s.q (n + 1) ∧ t.d = 0xFF ∧ t.pc = s.pc + 1 ∧
      FlagsKept s t ∧
      ((∀ j k, j ≤ n → k ≤ n → up s.p j ≠ up s.q k) →
        ∀ k ≤ n, t.iramGet (up s.p k) = s.iramGet (up s.q k) ∧ t.iramGet (up s.q k) = s.iramGet (up s.p k))

/-- MVWD and MVBD (43_block_bcd.md rules R265 and R266): each internal byte takes what a data read of its external
address gives, where the destination does not meet itself and a byte answers at every source address. What is read
below &2000 is the spec's own decision D5 (log entry 11). -/
def Obligations.MoveExternalBlockCopies : Prop :=
  ∀ (s : State) (i : Instr) (count : Reg) (n : Nat), (i, count) ∈ [(Instr.mvwd, Reg.i), (.mvbd, .j)] →
    n = (s.reg count).toNat → s.existsUp s.p n →
    ∃ t, exec i s = .next t ∧ t.p = up s.p (n + 1) ∧ t.dp = above s.dp (n + 1) ∧ t.d = 0xFF ∧ t.q = s.q ∧
      t.pc = s.pc + 1 ∧ FlagsKept s t ∧
      (n < 128 → (∀ k ≤ n, s.fetchable (above s.dp k) = true) →
        ∀ k ≤ n, t.iramGet (up s.p k) = (s.memRead (above s.dp k)).1)

/-- EXWD and EXBD (43_block_bcd.md rules R267 and R268): internal and external bytes change places; where the external
address is not RAM its byte stays as it was. Q is not changed. That a write outside RAM is lost is the spec's own
decision D6 (log entry 11). -/
def Obligations.ExchangeExternalBlockSwaps : Prop :=
  ∀ (s : State) (i : Instr) (count : Reg) (n : Nat), (i, count) ∈ [(Instr.exwd, Reg.i), (.exbd, .j)] →
    n = (s.reg count).toNat → s.existsUp s.p n →
    ∃ t, exec i s = .next t ∧ t.p = up s.p (n + 1) ∧ t.dp = above s.dp (n + 1) ∧ t.d = 0xFF ∧ t.q = s.q ∧
      t.pc = s.pc + 1 ∧ FlagsKept s t ∧
      (n < 128 → (∀ k ≤ n, s.fetchable (above s.dp k) = true) →
        ∀ k ≤ n, t.iramGet (up s.p k) = (s.memRead (above s.dp k)).1 ∧
          t.storedByte (above s.dp k) =
            if s.backing (above s.dp k) = .ram then s.iramGet (up s.p k) else s.storedByte (above s.dp k))

/-- FILM and FILD (43_block_bcd.md rules R269 and R270): every byte of the range holds A, of an external range every
byte of RAM. That a write outside RAM is lost is the spec's own decision D6 (log entry 11). -/
def Obligations.FillsStoreA : Prop :=
  ∀ (s : State) (n : Nat), n = (s.reg .i).toNat →
    (s.existsUp s.p n →
      ∃ t, exec .film s = .next t ∧ t.p = up s.p (n + 1) ∧ t.d = 0xFF ∧ t.pc = s.pc + 1 ∧ FlagsKept s t ∧
        ∀ k ≤ n, t.iramGet (up s.p k) = s.reg .a) ∧
    (∃ t, exec .fild s = .next t ∧ t.dp = above s.dp (n + 1) ∧ t.d = 0xFF ∧ t.pc = s.pc + 1 ∧ FlagsKept s t ∧
      ∀ k ≤ n, t.storedByte (above s.dp k) =
        if s.backing (above s.dp k) = .ram then s.reg .a else s.storedByte (above s.dp k))

/-- DATA (43_block_bcd.md rule R271): bytes of program space, the internal ROM included, from B:A on, and B:A left
after the last of them, where the destination does not cover A or B and does not meet itself. C and Z are left open,
and nothing is said of them. That the flags are open is the spec's own decision D11 (log entry 14). -/
def Obligations.DataCopiesProgramSpace : Prop :=
  ∀ (s : State) (n : Nat), n = (s.reg .i).toNat → s.existsUp s.p n →
    ∃ t, exec .data s = .next t ∧ t.p = up s.p (n + 1) ∧ t.d = 0xFF ∧ t.q = s.q ∧ t.dp = s.dp ∧
      t.pc = s.pc + 1 ∧
      (n < 128 → (∀ k ≤ n, s.fetchable (above s.ba k) = true) →
        (∀ k ≤ n, up s.p k ≠ regAddr .a ∧ up s.p k ≠ regAddr .b) →
        t.ba = above s.ba (n + 1) ∧ ∀ k ≤ n, t.iramGet (up s.p k) = s.storedByte (above s.ba k))

/-- The encodings and cycle counts of the block, BCD and digit instructions (43_block_bcd.md, 70_reset_and_hazards.md
rule R420), d being the entry value of the count register. -/
def Obligations.BlockHeaders : Prop :=
  ∀ s : State,
    HasHeader .mvw s [0x08] (5 + 2 * (s.reg .i).toNat) ∧ HasHeader .mvb s [0x0A] (5 + 2 * (s.reg .j).toNat) ∧
    HasHeader .exw s [0x09] (6 + 3 * (s.reg .i).toNat) ∧ HasHeader .exb s [0x0B] (6 + 3 * (s.reg .j).toNat) ∧
    HasHeader .mvwd s [0x18] (5 + 4 * (s.reg .i).toNat) ∧ HasHeader .mvbd s [0x1A] (5 + 4 * (s.reg .j).toNat) ∧
    HasHeader .exwd s [0x19] (7 + 6 * (s.reg .i).toNat) ∧ HasHeader .exbd s [0x1B] (7 + 6 * (s.reg .j).toNat) ∧
    HasHeader .film s [0x1E] (5 + (s.reg .i).toNat) ∧ HasHeader .fild s [0x1F] (4 + 3 * (s.reg .i).toNat) ∧
    HasHeader .data s [0x35] (11 + 4 * (s.reg .i).toNat) ∧ HasHeader .adn s [0x0C] (7 + 3 * (s.reg .i).toNat) ∧
    HasHeader .sbn s [0x0D] (7 + 3 * (s.reg .i).toNat) ∧ HasHeader .adw s [0x0E] (7 + 3 * (s.reg .i).toNat) ∧
    HasHeader .sbw s [0x0F] (7 + 3 * (s.reg .i).toNat) ∧ HasHeader .srw s [0x1C] (5 + (s.reg .i).toNat) ∧
    HasHeader .slw s [0x1D] (5 + (s.reg .i).toNat)

/-- ADN and SBN (43_block_bcd.md rules R280 to R282): they complete wherever the string exists, whatever its digits;
and a decimal string of at most 128 bytes, with a decimal A, becomes its sum with A, or its difference, as a number: C
is the carry or borrow out of the last byte, Z says that the whole result is zero. That the carry starts at 0 and what
Z tests are the spec's own decision D10 (log entry 13). -/
def Obligations.BcdAddendIsDecimalArithmetic : Prop :=
  ∀ (s : State) (n : Nat), n = (s.reg .i).toNat → s.existsDown s.p n →
    (∃ t, exec .adn s = .next t ∧ t.p = down s.p (n + 1) ∧ t.d = 0xFF ∧ t.pc = s.pc + 1 ∧
      (n < 128 → s.isDecimal s.p n → isBcd (s.reg .a) = true →
        t.isDecimal s.p n ∧
        t.decimal s.p n + 100 ^ (n + 1) * t.c.toNat = s.decimal s.p n + bcdValue (s.reg .a) ∧
        t.z = decide (t.decimal s.p n = 0))) ∧
    (∃ t, exec .sbn s = .next t ∧ t.p = down s.p (n + 1) ∧ t.d = 0xFF ∧ t.pc = s.pc + 1 ∧
      (n < 128 → s.isDecimal s.p n → isBcd (s.reg .a) = true →
        t.isDecimal s.p n ∧
        t.decimal s.p n + bcdValue (s.reg .a) = s.decimal s.p n + 100 ^ (n + 1) * t.c.toNat ∧
        t.z = decide (t.decimal s.p n = 0)))

/-- ADW and SBW (43_block_bcd.md rules R283 and R284): the same with the decimal string at Q, where no byte of that
string is overwritten before it is read; Q steps once for each byte, and once more where the platform's BCDW_Q_EXTRA
says so. That the carry starts at 0 and what Z tests are the spec's own decision D10, the last step of Q its open
parameter D17 (log entries 13 and 17). -/
def Obligations.BcdStringIsDecimalArithmetic : Prop :=
  ∀ (s : State) (n : Nat), n = (s.reg .i).toNat → s.existsDown s.p n → s.existsDown s.q n →
    (∃ t, exec .adw s = .next t ∧ t.p = down s.p (n + 1) ∧ t.d = 0xFF ∧ t.pc = s.pc + 1 ∧
      t.q = down s.q (n + 1 + s.platform.bcdwQExtra.toNat) ∧
      (n < 128 → s.isDecimal s.p n → s.isDecimal s.q n →
        (∀ j k, j < k → k ≤ n → down s.p j ≠ down s.q k) →
        t.isDecimal s.p n ∧
        t.decimal s.p n + 100 ^ (n + 1) * t.c.toNat = s.decimal s.p n + s.decimal s.q n ∧
        t.z = decide (t.decimal s.p n = 0))) ∧
    (∃ t, exec .sbw s = .next t ∧ t.p = down s.p (n + 1) ∧ t.d = 0xFF ∧ t.pc = s.pc + 1 ∧
      t.q = down s.q (n + 1 + s.platform.bcdwQExtra.toNat) ∧
      (n < 128 → s.isDecimal s.p n → s.isDecimal s.q n →
        (∀ j k, j < k → k ≤ n → down s.p j ≠ down s.q k) →
        t.isDecimal s.p n ∧
        t.decimal s.p n + s.decimal s.q n = s.decimal s.p n + 100 ^ (n + 1) * t.c.toNat ∧
        t.z = decide (t.decimal s.p n = 0)))

/-- SRW and SLW (43_block_bcd.md rules R285 and R286): they complete wherever the string exists; a string of at most
128 bytes loses its last digit, or its first, and takes a 0 at the other end. SRW starts at the first byte and walks
up, SLW at the last and walks down; neither writes a flag. -/
def Obligations.DigitShiftsMoveOneDigit : Prop :=
  ∀ (s : State) (n : Nat), n = (s.reg .i).toNat →
    (s.existsUp s.p n →
      ∃ t, exec .srw s = .next t ∧ t.p = up s.p (n + 1) ∧ t.d = 0xFF ∧ t.pc = s.pc + 1 ∧ FlagsKept s t ∧
        (n < 128 → t.digits (up s.p n) n = s.digits (up s.p n) n / 16)) ∧
    (s.existsDown s.p n →
      ∃ t, exec .slw s = .next t ∧ t.p = down s.p (n + 1) ∧ t.d = 0xFF ∧ t.pc = s.pc + 1 ∧ FlagsKept s t ∧
        (n < 128 → t.digits s.p n = s.digits s.p n * 16 % 256 ^ (n + 1)))

/-! ### Control flow -/

/-- The ten relative jumps (44_control_flow.md rules R300 to R310): from pc + 1, n up or n down, where the condition
holds, else on to the next instruction; no flag is written. That targets wrap modulo 65536 is the spec's own decision
D2 (log entry 12). -/
def Obligations.RelativeJumps : Prop :=
  ∀ (s : State) (n : Byte),
    (∃ t, exec (.jrnzp n) s = .next t ∧
      t.pc = (if s.z = false then s.pc + 1 + n.setWidth 16 else s.pc + 2) ∧ FlagsKept s t) ∧
    (∃ t, exec (.jrnzm n) s = .next t ∧
      t.pc = (if s.z = false then s.pc + 1 - n.setWidth 16 else s.pc + 2) ∧ FlagsKept s t) ∧
    (∃ t, exec (.jrncp n) s = .next t ∧
      t.pc = (if s.c = false then s.pc + 1 + n.setWidth 16 else s.pc + 2) ∧ FlagsKept s t) ∧
    (∃ t, exec (.jrncm n) s = .next t ∧
      t.pc = (if s.c = false then s.pc + 1 - n.setWidth 16 else s.pc + 2) ∧ FlagsKept s t) ∧
    (∃ t, exec (.jrp n) s = .next t ∧ t.pc = s.pc + 1 + n.setWidth 16 ∧ FlagsKept s t) ∧
    (∃ t, exec (.jrm n) s = .next t ∧ t.pc = s.pc + 1 - n.setWidth 16 ∧ FlagsKept s t) ∧
    (∃ t, exec (.jrzp n) s = .next t ∧
      t.pc = (if s.z = true then s.pc + 1 + n.setWidth 16 else s.pc + 2) ∧ FlagsKept s t) ∧
    (∃ t, exec (.jrzm n) s = .next t ∧
      t.pc = (if s.z = true then s.pc + 1 - n.setWidth 16 else s.pc + 2) ∧ FlagsKept s t) ∧
    (∃ t, exec (.jrcp n) s = .next t ∧
      t.pc = (if s.c = true then s.pc + 1 + n.setWidth 16 else s.pc + 2) ∧ FlagsKept s t) ∧
    (∃ t, exec (.jrcm n) s = .next t ∧
      t.pc = (if s.c = true then s.pc + 1 - n.setWidth 16 else s.pc + 2) ∧ FlagsKept s t) ∧
    HasHeader (.jrnzp n) s [0x28, n] (if s.z = false then 7 else 4) ∧
    HasHeader (.jrnzm n) s [0x29, n] (if s.z = false then 7 else 4) ∧
    HasHeader (.jrncp n) s [0x2A, n] (if s.c = false then 7 else 4) ∧
    HasHeader (.jrncm n) s [0x2B, n] (if s.c = false then 7 else 4) ∧
    HasHeader (.jrp n) s [0x2C, n] 7 ∧ HasHeader (.jrm n) s [0x2D, n] 7 ∧
    HasHeader (.jrzp n) s [0x38, n] (if s.z = true then 7 else 4) ∧
    HasHeader (.jrzm n) s [0x39, n] (if s.z = true then 7 else 4) ∧
    HasHeader (.jrcp n) s [0x3A, n] (if s.c = true then 7 else 4) ∧
    HasHeader (.jrcm n) s [0x3B, n] (if s.c = true then 7 else 4)

/-- The five absolute jumps (44_control_flow.md rules R311 to R315). -/
def Obligations.AbsoluteJumps : Prop :=
  ∀ (s : State) (nm : Word),
    (∃ t, exec (.jp nm) s = .next t ∧ t.pc = nm ∧ FlagsKept s t) ∧
    (∃ t, exec (.jpnz nm) s = .next t ∧ t.pc = (if s.z = false then nm else s.pc + 3) ∧ FlagsKept s t) ∧
    (∃ t, exec (.jpnc nm) s = .next t ∧ t.pc = (if s.c = false then nm else s.pc + 3) ∧ FlagsKept s t) ∧
    (∃ t, exec (.jpz nm) s = .next t ∧ t.pc = (if s.z = true then nm else s.pc + 3) ∧ FlagsKept s t) ∧
    (∃ t, exec (.jpc nm) s = .next t ∧ t.pc = (if s.c = true then nm else s.pc + 3) ∧ FlagsKept s t) ∧
    HasHeader (.jp nm) s [0x79, hiByte nm, loByte nm] 6 ∧ HasHeader (.jpnz nm) s [0x7C, hiByte nm, loByte nm] 6 ∧
    HasHeader (.jpnc nm) s [0x7D, hiByte nm, loByte nm] 6 ∧ HasHeader (.jpz nm) s [0x7E, hiByte nm, loByte nm] 6 ∧
    HasHeader (.jpc nm) s [0x7F, hiByte nm, loByte nm] 6

/-- LOOP (44_control_flow.md rule R316), where the byte on top of the stack exists: it is decremented; while it was not
0 the jump back is taken, and when it was 0 it is dropped and the next instruction follows. That Z tests the
decremented byte is the spec's own decision D10 (log entry 13). -/
def Obligations.LoopCountsOnTheStack : Prop :=
  ∀ (s : State) (n : Byte), s.implemented s.r = true →
    (s.iramGet s.r ≠ 0 →
      ∃ t, exec (.loop n) s = .next t ∧ t.iramGet s.r = s.iramGet s.r - 1 ∧ t.c = false ∧
        t.z = decide (s.iramGet s.r = 1) ∧ t.r = s.r ∧ t.pc = s.pc + 1 - n.setWidth 16 ∧
        HasHeader (.loop n) s [0x2F, n] 10) ∧
    (s.iramGet s.r = 0 →
      ∃ t, exec (.loop n) s = .next t ∧ t.iramGet s.r = 0xFF ∧ t.c = true ∧ t.z = false ∧ t.r = s.r + 1 ∧
        t.pc = s.pc + 2 ∧ HasHeader (.loop n) s [0x2F, n] 7)

/-- CALL, CAL, PTJ and RTN (44_control_flow.md rules R320 to R323), where the bytes used exist: the return address with
its high byte at R - 1 and its low byte at R - 2; RTN takes the two bytes at R and R + 1 as pc, whatever put them
there, and writes no flag. TJ and the end of the run are the spec's own decisions D9 and D12 (log entries 19 and 8). -/
def Obligations.CallsAndReturns : Prop :=
  ∀ (s : State) (nm : Word) (ln : BitVec 13) (l : Byte),
    (s.implemented (s.r - 1) = true → s.implemented (s.r - 2) = true →
      (∃ t, exec (.call nm) s = .next t ∧ t.iramGet (s.r - 1) = hiByte (s.pc + 3) ∧
        t.iramGet (s.r - 2) = loByte (s.pc + 3) ∧ t.r = s.r - 2 ∧ t.pc = nm ∧ FlagsKept s t) ∧
      (∃ t, exec (.cal ln) s = .next t ∧ t.iramGet (s.r - 1) = hiByte (s.pc + 2) ∧
        t.iramGet (s.r - 2) = loByte (s.pc + 2) ∧ t.r = s.r - 2 ∧ t.pc.toNat = ln.toNat ∧ FlagsKept s t) ∧
      (∃ t, exec (.ptj l nm) s = .next t ∧ t.iramGet (s.r - 1) = hiByte nm ∧ t.iramGet (s.r - 2) = loByte nm ∧
        t.r = s.r - 2 ∧ t.tj = some l ∧ t.pc = s.pc + 4 ∧ FlagsKept s t)) ∧
    (s.implemented s.r = true → s.implemented (s.r + 1) = true →
      ∃ t, exec .rtn s = .next t ∧ loByte t.pc = s.iramGet s.r ∧ hiByte t.pc = s.iramGet (s.r + 1) ∧
        t.r = s.r + 2 ∧ FlagsKept s t ∧ t.status = (if s.hostR = some s.r then .returned else s.status)) ∧
    HasHeader (.call nm) s [0x78, hiByte nm, loByte nm] 8 ∧
    HasHeader (.cal ln) s [0b111#3 ++ ln.extractLsb' 8 5, ln.extractLsb' 0 8] 7 ∧
    HasHeader (.ptj l nm) s [0x7A, l, hiByte nm, loByte nm] 9 ∧ HasHeader .rtn s [0x37] 4

/-- DTJ (44_control_flow.md rule R324): with TJ unset it stops by name; else it completes, and where the table's bytes
are held by memory it goes to the first entry whose first byte is A, or to the default after the last. A, R and TJ are
not changed; C and Z are left open, and nothing is said of them. TJ, the search and the open flags are the spec's own
decisions D9 and D11 (log entries 19 and 14). -/
def Obligations.TableJumpTakesTheFirstMatch : Prop :=
  ∀ s : State, encode .dtj = [0x69] ∧
    (s.tj = none → exec .dtj s = .fault (.tableJumpUnprepared s.pc)) ∧
    ∀ count : Byte, s.tj = some count →
      ∃ t, exec .dtj s = .next t ∧ t.iram = s.iram ∧ t.r = s.r ∧ t.tj = s.tj ∧
        ((∀ k < 3 * count.toNat + 2, s.fetchable (above s.pc (1 + k)) = true) →
          (∀ m < count.toNat, (∀ k < m, s.storedByte (above s.pc (1 + 3 * k)) ≠ s.reg .a) →
            s.storedByte (above s.pc (1 + 3 * m)) = s.reg .a →
            t.pc = joinBytes (s.storedByte (above s.pc (2 + 3 * m))) (s.storedByte (above s.pc (3 + 3 * m)))) ∧
          ((∀ k < count.toNat, s.storedByte (above s.pc (1 + 3 * k)) ≠ s.reg .a) →
            t.pc = joinBytes (s.storedByte (above s.pc (1 + 3 * count.toNat)))
              (s.storedByte (above s.pc (2 + 3 * count.toNat)))))

/-! ### Ports, TEST, waits, undescribed first bytes -/

/-- INA and INB (45_io_timing_misc.md rules R341 and R342): A takes the sample of the port, which is the next byte the
environment supplies where there is one, and Z says whether it is zero; C and the port byte are not written. That Z
tests the byte read is the spec's own decision D10 (log entry 13). -/
def Obligations.InputsSampleThePort : Prop :=
  ∀ s : State,
    (∃ t, exec .ina s = .next t ∧ ZeroFlagOnly (t.reg .a) s t ∧ t.iramGet 0x5C = s.iramGet 0x5C ∧
      t.pc = s.pc + 1 ∧ ∀ v rest, s.inIA = v :: rest → t.reg .a = v ∧ t.inIA = rest) ∧
    (∃ t, exec .inb s = .next t ∧ ZeroFlagOnly (t.reg .a) s t ∧ t.iramGet 0x5D = s.iramGet 0x5D ∧
      t.pc = s.pc + 1 ∧ ∀ v rest, s.inIB = v :: rest → t.reg .a = v ∧ t.inIB = rest) ∧
    HasHeader .ina s [0x4C] 2 ∧ HasHeader .inb s [0xCC] 2

/-- OUTA, OUTB, OUTF and OUTC (45_io_timing_misc.md rules R343 to R346): the port takes its internal-RAM byte and the
environment is told; OUTC then ends the run as OFF, or else HLT, says. The two stops are the spec's own decision D14
(log entry 24), the list of what was put out is the model's (log entry 9). -/
def Obligations.OutputsDriveThePorts : Prop :=
  ∀ s : State,
    (∃ t, exec .outa s = .next t ∧ t.outIA = s.iramGet 0x5C ∧
      t.outputs = s.outputs ++ [OutEvent.port .ia (s.iramGet 0x5C)] ∧ t.pc = s.pc + 1 ∧ t.status = s.status ∧
      t.iram = s.iram ∧ FlagsKept s t) ∧
    (∃ t, exec .outb s = .next t ∧ t.outIB = s.iramGet 0x5D ∧
      t.outputs = s.outputs ++ [OutEvent.port .ib (s.iramGet 0x5D)] ∧ t.pc = s.pc + 1 ∧ t.status = s.status ∧
      t.iram = s.iram ∧ FlagsKept s t) ∧
    (∃ t, exec .outf s = .next t ∧ t.linesF0.toNat = (s.iramGet 0x5E).toNat % 32 ∧
      t.outputs = s.outputs ++ [OutEvent.port .f0 (s.iramGet 0x5E)] ∧ t.pc = s.pc + 1 ∧ t.status = s.status ∧
      t.iram = s.iram ∧ FlagsKept s t) ∧
    (∃ t, exec .outc s = .next t ∧ t.outC = s.iramGet 0x5F ∧
      t.outputs = s.outputs ++ [OutEvent.port .c (s.iramGet 0x5F)] ∧ t.pc = s.pc + 1 ∧ t.iram = s.iram ∧
      FlagsKept s t ∧
      t.status = (if (s.iramGet 0x5F).getLsbD 3 = true then .stopped .powerOff
        else if (s.iramGet 0x5F).getLsbD 2 = true then .stopped .clockHalted else s.status)) ∧
    HasHeader .outa s [0x5D] 3 ∧ HasHeader .outb s [0xDD] 2 ∧ HasHeader .outf s [0x5F] 3 ∧
    HasHeader .outc s [0xDF] 2

/-- TEST (45_io_timing_misc.md rule R347): Z says that no selected signal is 1; nothing else that a program sees
changes. Where the mask selects only named signals Z is decided by what the environment supplies; where it selects an
NC bit too, a named signal at 1 still gives Z = 0. That the NC bits are open is the spec's own decision D18 (log entry
26). -/
def Obligations.TestSamplesTheSignals : Prop :=
  ∀ (s : State) (n : Byte),
    (∃ t, exec (.test n) s = .next t ∧ t.c = s.c ∧ t.iram = s.iram ∧ t.pc = s.pc + 2 ∧
      ∀ v rest, s.inTest = v :: rest →
        t.inTest = rest ∧ (n &&& 0x34 = 0 → t.z = decide (v &&& n = 0)) ∧ (v &&& n &&& 0xCB ≠ 0 → t.z = false)) ∧
    HasHeader (.test n) s [0x6B, n] 4

/-- NOPW, NOPT, WAIT and WAITI (45_io_timing_misc.md rules R348 to R351): pc moves on and nothing else changes, but
that WAITI leaves d at &FF and P and Z open. That WAITI changes nothing more is the spec's optimistic reading. What
WAITI leaves open and that it changes nothing more are the spec's own decision D11 (log entry 14, unsafe). -/
def Obligations.NoOperationsAndWaits : Prop :=
  ∀ (s : State) (n : Byte),
    exec .nopw s = .next { s with pc := s.pc + 1 } ∧
    exec .nopt s = .next { s with pc := s.pc + 1 } ∧
    exec (.wait n) s = .next { s with pc := s.pc + 2 } ∧
    (∃ t, exec .waiti s = .next t ∧ t.pc = s.pc + 1 ∧ t.d = 0xFF ∧ t.c = s.c ∧ t.iram = s.iram ∧ t.q = s.q ∧
      t.r = s.r ∧ t.dp = s.dp) ∧
    HasHeader .nopw s [0x4D] 2 ∧ HasHeader .nopt s [0xCE] 3 ∧ HasHeader (.wait n) s [0x4E, n] (6 + n.toNat) ∧
    HasHeader .waiti s [0x4F] (5 + 4 * (s.reg .i).toNat)

/-- WRIT and the 28 first bytes without a description stop by name with their byte (45_io_timing_misc.md rules R352 and
R353). The stop is the spec's own decision D8 (log entry 23). -/
def Obligations.UndescribedFirstBytesStop : Prop :=
  ∀ (s : State) (i : Instr), i.wellFormed = false →
    ∃ b, encode i = [b] ∧ exec i s = .fault (.undefinedOpcode b) ∧ cycleCount i s = none

/-! ### Frames -/

/-- Loads, stores, moves and the stack change nothing but what `mayWrite` lists and pc. -/
def Obligations.LoadsOnlyWriteWhatTheyMay : Prop :=
  ∀ (i : Instr) (s t : State), familyOf i = .load → exec i s = .next t → OnlyWrites (mayWrite i s) s t

/-- The same for arithmetic and logic. That ANID too writes the scratch byte is the spec's own decision D16 (log entry
15). -/
def Obligations.ArithmeticOnlyWritesWhatItMay : Prop :=
  ∀ (i : Instr) (s t : State), familyOf i = .arith → exec i s = .next t → OnlyWrites (mayWrite i s) s t

/-- The same for increments, decrements and pointer steps. That INCP and DECP may write C, Z and Q is the spec's own
decision D11 (log entry 14). -/
def Obligations.CountsOnlyWriteWhatTheyMay : Prop :=
  ∀ (i : Instr) (s t : State), familyOf i = .count → exec i s = .next t → OnlyWrites (mayWrite i s) s t

/-- The same for block moves, fills, DATA, BCD strings and digit shifts: every byte outside the range walked over
stays, internal and external. That DATA may write C and Z is the spec's own decision D11 (log entry 14). -/
def Obligations.BlocksOnlyWriteWhatTheyMay : Prop :=
  ∀ (i : Instr) (s t : State), familyOf i = .block → exec i s = .next t → OnlyWrites (mayWrite i s) s t

/-- The same for jumps, LOOP, calls, RTN and the table jump. That PTJ keeps its count in a hidden register, that DTJ
pushes and pops nothing, and that DTJ may write C and Z are the spec's own decisions D9 and D11 (log entries 19,
unsafe, and 14). -/
def Obligations.ControlOnlyWritesWhatItMay : Prop :=
  ∀ (i : Instr) (s t : State), familyOf i = .control → exec i s = .next t → OnlyWrites (mayWrite i s) s t

/-- The same for ports, TEST, no-operations and waits. That WAITI writes no more than P, Z, d and pc is the spec's own
optimistic decision D11 (log entry 14, unsafe). -/
def Obligations.PortsOnlyWriteWhatTheyMay : Prop :=
  ∀ (i : Instr) (s t : State), familyOf i = .port → exec i s = .next t → OnlyWrites (mayWrite i s) s t

/-! ### The whole machine -/

/-- No other condition stops the model (60_exceptions.md rule R381): an instruction is never refused; it stops only
where it has no description, where it meets internal RAM above IRAM_TOP, or where DTJ finds TJ unset. The three stops
are the spec's own decisions D4, D8 and D9, their form the model's (log entries 7, 18, 19 and 23). -/
def Obligations.OnlyTheNamedStops : Prop :=
  ∀ (i : Instr) (s : State),
    (∀ why, exec i s ≠ .refused why) ∧
    ∀ f, exec i s = .fault f →
      (∃ b, i.wellFormed = false ∧ f = .undefinedOpcode b) ∨
      (∃ a, s.implemented a = false ∧ f = .unimplementedIram a) ∨
      (i = .dtj ∧ s.tj = none ∧ f = .tableJumpUnprepared s.pc)

/-- Where all of internal RAM exists (IRAM_TOP at &7F, 10_state.md rule R29), every described instruction completes in
every state, DTJ where a PTJ has set TJ. IRAM_TOP at &7F is one of the two values of the spec's own decision D4 (log
entry 18). -/
def Obligations.EveryDescribedInstructionCompletes : Prop :=
  ∀ (i : Instr) (s : State), i.wellFormed = true → s.platform.iramTop = .at7F → (i = .dtj → s.tj ≠ none) →
    ∃ t, exec i s = .next t

/-- What no step changes: the platform, internal RAM above IRAM_TOP, and every byte of memory that is not RAM
(20_memory.md rule R64); what was put out stays put out, and supplied inputs are taken in order. That a write outside
RAM is lost is the spec's own decision D6, the lists of inputs and outputs are the model's (log entries 11 and 9). -/
def Obligations.WhatNoStepChanges : Prop :=
  ∀ s t : State, step s = .next t →
    t.platform = s.platform ∧ t.hostR = s.hostR ∧
    (∀ a, s.implemented a = false → t.iramGet a = s.iramGet a) ∧
    (∀ a, s.backing a ≠ .ram → t.storedByte a = s.storedByte a) ∧
    (∃ more, t.outputs = s.outputs ++ more) ∧ (∃ taken, s.inIA = taken ++ t.inIA) ∧
    (∃ taken, s.inIB = taken ++ t.inIB) ∧ (∃ taken, s.inTest = taken ++ t.inTest)

/-- "The internal ROM is invisible to data loads" (70_reset_and_hazards.md rule R424): any instruction but those that
read program space as data, READ, READM, DATA and DTJ, does the same whatever byte the internal ROM holds at an
address, and leaves that byte there. What a data read gives there is the spec's own decision D5 (log entry 11). -/
def Obligations.InternalRomIsInvisibleToData : Prop :=
  ∀ (i : Instr) (s : State) (a : Word) (v : Byte), s.mem.wf → a.toNat < 0x2000 →
    i ≠ .read → i ≠ .readm → i ≠ .data → i ≠ .dtj →
    (∀ t, exec i s = .next t → exec i (s.storeByte a v) = .next (t.storeByte a v)) ∧
    (∀ f, exec i s = .fault f → exec i (s.storeByte a v) = .fault f)

/-- Every step keeps the invariant, from every state: memory stays in its canonical form, and a run that OUTC stopped
stands with the control port at the byte that stopped it (45_io_timing_misc.md rule R346). The stop is the spec's own
decision D14, the form of memory the model's (log entries 24 and 4). -/
def Obligations.EveryStepKeepsTheInvariant : Prop :=
  ∀ s t : State, s.Inv → step s = .next t → t.Inv

/-! ### The platforms of the spec's tables -/

/-- What answers on the platform of a model by the spec's tables (20_memory.md rules R75, R78, R79, R82): the key port
at &3E00 where the model has one, RAM at every other address of its BASIC area and at both bytes of each of its system
pointers, and, where its BASIC area lies below &8000 and no further RAM is fitted, ROM that a PEEK can read from &8000
up. For which models R75's general layout holds is the model's reading of 90_conflicts.md C39 (log entry 29). -/
def Obligations.PlatformsFollowTheTables : Prop :=
  ∀ (s : State) (m : Model) (g : BasicArea) (fitted : List Region) (top : IramTop) (qExtra : Bool) (a : Word),
    g ∈ basicAreas → m ∈ g.models → s.platform = platformOf m g fitted top qExtra →
    (hasKeyPort m = true → a = 0x3E00 → s.backing a = .device) ∧
    (g.first ≤ a.toNat → a.toNat ≤ g.last → (hasKeyPort m = true → a ≠ 0x3E00) → s.backing a = .ram) ∧
    (∀ k ∈ (systemPointers m).addresses, a.toNat = k ∨ a.toNat = k + 1 → s.backing a = .ram) ∧
    (fitted = [] → g.last < 0x8000 → 0x8000 ≤ a.toNat →
      s.backing a = .rom ∧ s.peek a = (s.storedByte a, s))

end
end

