-- ==== Sys2Proof/Laws/Bytes.lean ====
section
/-! SUPPORT. Splitting and joining words, and what the arithmetic unit computes (41_arithmetic_logic.md rule R170),
stated with natural numbers and integers. -/

namespace Sys2Proof

@[simp] theorem hiByte_joinBytes (hi lo : Byte) : hiByte (joinBytes hi lo) = hi := by
  ext i h
  simp only [hiByte, joinBytes, BitVec.getElem_extractLsb', BitVec.getLsbD_append]
  rw [if_neg (by omega), Nat.add_sub_cancel_left, BitVec.getLsbD_eq_getElem h]

@[simp] theorem loByte_joinBytes (hi lo : Byte) : loByte (joinBytes hi lo) = lo := by
  ext i h
  simp only [loByte, joinBytes, BitVec.getElem_extractLsb', BitVec.getLsbD_append]
  rw [if_pos (by omega), Nat.zero_add, BitVec.getLsbD_eq_getElem h]

@[simp] theorem joinBytes_hiByte_loByte (w : Word) : joinBytes (hiByte w) (loByte w) = w := by
  apply BitVec.eq_of_getLsbD_eq
  intro i h
  simp only [joinBytes, hiByte, loByte, BitVec.getLsbD_append, BitVec.getLsbD_extractLsb']
  split
  · rw [decide_eq_true ‹_›, Bool.true_and, Nat.zero_add]
  · rw [decide_eq_true (by omega), Bool.true_and, show 8 + (i - 8) = i by omega]

@[simp] theorem toPtr_ofPtr (p : Ptr) : toPtr (ofPtr p) = p := by
  ext i h
  simp only [toPtr, ofPtr, BitVec.getElem_extractLsb', BitVec.getLsbD_setWidth, Nat.zero_add]
  rw [decide_eq_true (by omega), Bool.true_and, BitVec.getLsbD_eq_getElem h]

@[simp] theorem hiNibble_joinNibbles (hi lo : BitVec 4) : hiNibble (joinNibbles hi lo) = hi := by
  ext i h
  simp only [hiNibble, joinNibbles, BitVec.getElem_extractLsb', BitVec.getLsbD_append]
  rw [if_neg (by omega), Nat.add_sub_cancel_left, BitVec.getLsbD_eq_getElem h]

@[simp] theorem loNibble_joinNibbles (hi lo : BitVec 4) : loNibble (joinNibbles hi lo) = lo := by
  ext i h
  simp only [loNibble, joinNibbles, BitVec.getElem_extractLsb', BitVec.getLsbD_append]
  rw [if_pos (by omega), Nat.zero_add, BitVec.getLsbD_eq_getElem h]

namespace Machine

/-- The 8-bit sum and its carry make the exact sum. -/
theorem add8_exact (x y : Byte) (cin : Bool) :
    (add8 x y cin).value.toNat + 256 * (add8 x y cin).carry.toNat = x.toNat + y.toNat + cin.toNat := by
  have hx := x.isLt
  have hy := y.isLt
  have hc := Bool.toNat_le cin
  simp only [add8, BitVec.toNat_ofNat]
  by_cases past : 255 < x.toNat + y.toNat + cin.toNat
  · rw [decide_eq_true past, Bool.toNat_true]; omega
  · rw [decide_eq_false past, Bool.toNat_false]; omega

/-- The 8-bit difference and its borrow make the exact difference. -/
theorem sub8_exact (x y : Byte) (bin : Bool) :
    ((sub8 x y bin).value.toNat : Int) - 256 * (sub8 x y bin).carry.toNat = x.toNat - y.toNat - bin.toNat := by
  have hx := x.isLt
  have hy := y.isLt
  have hc := Bool.toNat_le bin
  simp only [sub8, BitVec.toNat_ofInt]
  by_cases past : (x.toNat : Int) - y.toNat - bin.toNat < 0
  · rw [decide_eq_true past, Bool.toNat_true]; omega
  · rw [decide_eq_false past, Bool.toNat_false]; omega

/-- The zero flag of a sum is the zero test of its result. -/
theorem add8_zero (x y : Byte) (cin : Bool) : (add8 x y cin).zero = isZero (add8 x y cin).value := rfl

/-- The zero flag of a difference is the zero test of its result. -/
theorem sub8_zero (x y : Byte) (bin : Bool) : (sub8 x y bin).zero = isZero (sub8 x y bin).value := rfl

/-- The 16-bit sum and its carry make the exact sum. -/
theorem add16_exact (x y : Word) :
    (add16 x y).value.toNat + 65536 * (add16 x y).carry.toNat = x.toNat + y.toNat := by
  have hx := x.isLt
  have hy := y.isLt
  simp only [add16, BitVec.toNat_ofNat]
  by_cases past : 65535 < x.toNat + y.toNat
  · rw [decide_eq_true past, Bool.toNat_true]; omega
  · rw [decide_eq_false past, Bool.toNat_false]; omega

/-- The 16-bit difference and its borrow make the exact difference. -/
theorem sub16_exact (x y : Word) :
    ((sub16 x y).value.toNat : Int) - 65536 * (sub16 x y).carry.toNat = x.toNat - y.toNat := by
  have hx := x.isLt
  have hy := y.isLt
  simp only [sub16, BitVec.toNat_ofInt]
  by_cases past : (x.toNat : Int) - y.toNat < 0
  · rw [decide_eq_true past, Bool.toNat_true]; omega
  · rw [decide_eq_false past, Bool.toNat_false]; omega

/-- The zero test. -/
theorem isZero_iff (v : Byte) : isZero v = true ↔ v = 0 := by simp [isZero]

end Machine

end Sys2Proof
end

