-- ==== Sys2Proof/Laws/State.lean ====
section
/-! SUPPORT. What each update of the state leaves in each field: one lemma per field per update, true by
unfolding, so that no later proof unfolds a record update. -/

namespace Sys2Proof.Machine

/-! ### iramSet -/

theorem iramSet_iram (s : State) (a : Ptr) (v : Byte) : (s.iramSet a v).iram = s.iram.set a.toNat v a.isLt := rfl
@[simp] theorem iramSet_p (s : State) (a : Ptr) (v : Byte) : (s.iramSet a v).p = s.p := rfl
@[simp] theorem iramSet_q (s : State) (a : Ptr) (v : Byte) : (s.iramSet a v).q = s.q := rfl
@[simp] theorem iramSet_r (s : State) (a : Ptr) (v : Byte) : (s.iramSet a v).r = s.r := rfl
@[simp] theorem iramSet_pc (s : State) (a : Ptr) (v : Byte) : (s.iramSet a v).pc = s.pc := rfl
@[simp] theorem iramSet_dp (s : State) (a : Ptr) (v : Byte) : (s.iramSet a v).dp = s.dp := rfl
@[simp] theorem iramSet_c (s : State) (a : Ptr) (v : Byte) : (s.iramSet a v).c = s.c := rfl
@[simp] theorem iramSet_z (s : State) (a : Ptr) (v : Byte) : (s.iramSet a v).z = s.z := rfl
@[simp] theorem iramSet_d (s : State) (a : Ptr) (v : Byte) : (s.iramSet a v).d = s.d := rfl
@[simp] theorem iramSet_tj (s : State) (a : Ptr) (v : Byte) : (s.iramSet a v).tj = s.tj := rfl
@[simp] theorem iramSet_outIA (s : State) (a : Ptr) (v : Byte) : (s.iramSet a v).outIA = s.outIA := rfl
@[simp] theorem iramSet_outIB (s : State) (a : Ptr) (v : Byte) : (s.iramSet a v).outIB = s.outIB := rfl
@[simp] theorem iramSet_outF0 (s : State) (a : Ptr) (v : Byte) : (s.iramSet a v).outF0 = s.outF0 := rfl
@[simp] theorem iramSet_outC (s : State) (a : Ptr) (v : Byte) : (s.iramSet a v).outC = s.outC := rfl
@[simp] theorem iramSet_mem (s : State) (a : Ptr) (v : Byte) : (s.iramSet a v).mem = s.mem := rfl
@[simp] theorem iramSet_status (s : State) (a : Ptr) (v : Byte) : (s.iramSet a v).status = s.status := rfl
@[simp] theorem iramSet_inIA (s : State) (a : Ptr) (v : Byte) : (s.iramSet a v).inIA = s.inIA := rfl
@[simp] theorem iramSet_inIB (s : State) (a : Ptr) (v : Byte) : (s.iramSet a v).inIB = s.inIB := rfl
@[simp] theorem iramSet_inTest (s : State) (a : Ptr) (v : Byte) : (s.iramSet a v).inTest = s.inTest := rfl
@[simp] theorem iramSet_outputs (s : State) (a : Ptr) (v : Byte) : (s.iramSet a v).outputs = s.outputs := rfl
@[simp] theorem iramSet_hostR (s : State) (a : Ptr) (v : Byte) : (s.iramSet a v).hostR = s.hostR := rfl
@[simp] theorem iramSet_draws (s : State) (a : Ptr) (v : Byte) : (s.iramSet a v).draws = s.draws := rfl
@[simp] theorem iramSet_platform (s : State) (a : Ptr) (v : Byte) : (s.iramSet a v).platform = s.platform := rfl

/-! ### setReg -/

@[simp] theorem setReg_p (s : State) (g : Reg) (v : Byte) : (s.setReg g v).p = s.p := rfl
@[simp] theorem setReg_q (s : State) (g : Reg) (v : Byte) : (s.setReg g v).q = s.q := rfl
@[simp] theorem setReg_r (s : State) (g : Reg) (v : Byte) : (s.setReg g v).r = s.r := rfl
@[simp] theorem setReg_pc (s : State) (g : Reg) (v : Byte) : (s.setReg g v).pc = s.pc := rfl
@[simp] theorem setReg_dp (s : State) (g : Reg) (v : Byte) : (s.setReg g v).dp = s.dp := rfl
@[simp] theorem setReg_c (s : State) (g : Reg) (v : Byte) : (s.setReg g v).c = s.c := rfl
@[simp] theorem setReg_z (s : State) (g : Reg) (v : Byte) : (s.setReg g v).z = s.z := rfl
@[simp] theorem setReg_d (s : State) (g : Reg) (v : Byte) : (s.setReg g v).d = s.d := rfl
@[simp] theorem setReg_tj (s : State) (g : Reg) (v : Byte) : (s.setReg g v).tj = s.tj := rfl
@[simp] theorem setReg_outIA (s : State) (g : Reg) (v : Byte) : (s.setReg g v).outIA = s.outIA := rfl
@[simp] theorem setReg_outIB (s : State) (g : Reg) (v : Byte) : (s.setReg g v).outIB = s.outIB := rfl
@[simp] theorem setReg_outF0 (s : State) (g : Reg) (v : Byte) : (s.setReg g v).outF0 = s.outF0 := rfl
@[simp] theorem setReg_outC (s : State) (g : Reg) (v : Byte) : (s.setReg g v).outC = s.outC := rfl
@[simp] theorem setReg_mem (s : State) (g : Reg) (v : Byte) : (s.setReg g v).mem = s.mem := rfl
@[simp] theorem setReg_status (s : State) (g : Reg) (v : Byte) : (s.setReg g v).status = s.status := rfl
@[simp] theorem setReg_inIA (s : State) (g : Reg) (v : Byte) : (s.setReg g v).inIA = s.inIA := rfl
@[simp] theorem setReg_inIB (s : State) (g : Reg) (v : Byte) : (s.setReg g v).inIB = s.inIB := rfl
@[simp] theorem setReg_inTest (s : State) (g : Reg) (v : Byte) : (s.setReg g v).inTest = s.inTest := rfl
@[simp] theorem setReg_outputs (s : State) (g : Reg) (v : Byte) : (s.setReg g v).outputs = s.outputs := rfl
@[simp] theorem setReg_hostR (s : State) (g : Reg) (v : Byte) : (s.setReg g v).hostR = s.hostR := rfl
@[simp] theorem setReg_draws (s : State) (g : Reg) (v : Byte) : (s.setReg g v).draws = s.draws := rfl
@[simp] theorem setReg_platform (s : State) (g : Reg) (v : Byte) : (s.setReg g v).platform = s.platform := rfl

/-! ### setPair -/

@[simp] theorem setPair_p (s : State) (g h : Reg) (w : Word) : (s.setPair g h w).p = s.p := rfl
@[simp] theorem setPair_q (s : State) (g h : Reg) (w : Word) : (s.setPair g h w).q = s.q := rfl
@[simp] theorem setPair_r (s : State) (g h : Reg) (w : Word) : (s.setPair g h w).r = s.r := rfl
@[simp] theorem setPair_pc (s : State) (g h : Reg) (w : Word) : (s.setPair g h w).pc = s.pc := rfl
@[simp] theorem setPair_dp (s : State) (g h : Reg) (w : Word) : (s.setPair g h w).dp = s.dp := rfl
@[simp] theorem setPair_c (s : State) (g h : Reg) (w : Word) : (s.setPair g h w).c = s.c := rfl
@[simp] theorem setPair_z (s : State) (g h : Reg) (w : Word) : (s.setPair g h w).z = s.z := rfl
@[simp] theorem setPair_d (s : State) (g h : Reg) (w : Word) : (s.setPair g h w).d = s.d := rfl
@[simp] theorem setPair_tj (s : State) (g h : Reg) (w : Word) : (s.setPair g h w).tj = s.tj := rfl
@[simp] theorem setPair_outIA (s : State) (g h : Reg) (w : Word) : (s.setPair g h w).outIA = s.outIA := rfl
@[simp] theorem setPair_outIB (s : State) (g h : Reg) (w : Word) : (s.setPair g h w).outIB = s.outIB := rfl
@[simp] theorem setPair_outF0 (s : State) (g h : Reg) (w : Word) : (s.setPair g h w).outF0 = s.outF0 := rfl
@[simp] theorem setPair_outC (s : State) (g h : Reg) (w : Word) : (s.setPair g h w).outC = s.outC := rfl
@[simp] theorem setPair_mem (s : State) (g h : Reg) (w : Word) : (s.setPair g h w).mem = s.mem := rfl
@[simp] theorem setPair_status (s : State) (g h : Reg) (w : Word) : (s.setPair g h w).status = s.status := rfl
@[simp] theorem setPair_inIA (s : State) (g h : Reg) (w : Word) : (s.setPair g h w).inIA = s.inIA := rfl
@[simp] theorem setPair_inIB (s : State) (g h : Reg) (w : Word) : (s.setPair g h w).inIB = s.inIB := rfl
@[simp] theorem setPair_inTest (s : State) (g h : Reg) (w : Word) : (s.setPair g h w).inTest = s.inTest := rfl
@[simp] theorem setPair_outputs (s : State) (g h : Reg) (w : Word) : (s.setPair g h w).outputs = s.outputs := rfl
@[simp] theorem setPair_hostR (s : State) (g h : Reg) (w : Word) : (s.setPair g h w).hostR = s.hostR := rfl
@[simp] theorem setPair_draws (s : State) (g h : Reg) (w : Word) : (s.setPair g h w).draws = s.draws := rfl
@[simp] theorem setPair_platform (s : State) (g h : Reg) (w : Word) : (s.setPair g h w).platform = s.platform := rfl

/-! ### storeByte -/

@[simp] theorem storeByte_iram (s : State) (a : Word) (v : Byte) : (s.storeByte a v).iram = s.iram := rfl
@[simp] theorem storeByte_p (s : State) (a : Word) (v : Byte) : (s.storeByte a v).p = s.p := rfl
@[simp] theorem storeByte_q (s : State) (a : Word) (v : Byte) : (s.storeByte a v).q = s.q := rfl
@[simp] theorem storeByte_r (s : State) (a : Word) (v : Byte) : (s.storeByte a v).r = s.r := rfl
@[simp] theorem storeByte_pc (s : State) (a : Word) (v : Byte) : (s.storeByte a v).pc = s.pc := rfl
@[simp] theorem storeByte_dp (s : State) (a : Word) (v : Byte) : (s.storeByte a v).dp = s.dp := rfl
@[simp] theorem storeByte_c (s : State) (a : Word) (v : Byte) : (s.storeByte a v).c = s.c := rfl
@[simp] theorem storeByte_z (s : State) (a : Word) (v : Byte) : (s.storeByte a v).z = s.z := rfl
@[simp] theorem storeByte_d (s : State) (a : Word) (v : Byte) : (s.storeByte a v).d = s.d := rfl
@[simp] theorem storeByte_tj (s : State) (a : Word) (v : Byte) : (s.storeByte a v).tj = s.tj := rfl
@[simp] theorem storeByte_outIA (s : State) (a : Word) (v : Byte) : (s.storeByte a v).outIA = s.outIA := rfl
@[simp] theorem storeByte_outIB (s : State) (a : Word) (v : Byte) : (s.storeByte a v).outIB = s.outIB := rfl
@[simp] theorem storeByte_outF0 (s : State) (a : Word) (v : Byte) : (s.storeByte a v).outF0 = s.outF0 := rfl
@[simp] theorem storeByte_outC (s : State) (a : Word) (v : Byte) : (s.storeByte a v).outC = s.outC := rfl
theorem storeByte_mem (s : State) (a : Word) (v : Byte) : (s.storeByte a v).mem = s.mem.write a.toNat v := rfl
@[simp] theorem storeByte_status (s : State) (a : Word) (v : Byte) : (s.storeByte a v).status = s.status := rfl
@[simp] theorem storeByte_inIA (s : State) (a : Word) (v : Byte) : (s.storeByte a v).inIA = s.inIA := rfl
@[simp] theorem storeByte_inIB (s : State) (a : Word) (v : Byte) : (s.storeByte a v).inIB = s.inIB := rfl
@[simp] theorem storeByte_inTest (s : State) (a : Word) (v : Byte) : (s.storeByte a v).inTest = s.inTest := rfl
@[simp] theorem storeByte_outputs (s : State) (a : Word) (v : Byte) : (s.storeByte a v).outputs = s.outputs := rfl
@[simp] theorem storeByte_hostR (s : State) (a : Word) (v : Byte) : (s.storeByte a v).hostR = s.hostR := rfl
@[simp] theorem storeByte_draws (s : State) (a : Word) (v : Byte) : (s.storeByte a v).draws = s.draws := rfl
@[simp] theorem storeByte_platform (s : State) (a : Word) (v : Byte) : (s.storeByte a v).platform = s.platform := rfl

/-! ### advance -/

@[simp] theorem advance_iram (s : State) (n : Word) : (s.advance n).iram = s.iram := rfl
@[simp] theorem advance_p (s : State) (n : Word) : (s.advance n).p = s.p := rfl
@[simp] theorem advance_q (s : State) (n : Word) : (s.advance n).q = s.q := rfl
@[simp] theorem advance_r (s : State) (n : Word) : (s.advance n).r = s.r := rfl
@[simp] theorem advance_pc (s : State) (n : Word) : (s.advance n).pc = s.pc + n := rfl
@[simp] theorem advance_dp (s : State) (n : Word) : (s.advance n).dp = s.dp := rfl
@[simp] theorem advance_c (s : State) (n : Word) : (s.advance n).c = s.c := rfl
@[simp] theorem advance_z (s : State) (n : Word) : (s.advance n).z = s.z := rfl
@[simp] theorem advance_d (s : State) (n : Word) : (s.advance n).d = s.d := rfl
@[simp] theorem advance_tj (s : State) (n : Word) : (s.advance n).tj = s.tj := rfl
@[simp] theorem advance_outIA (s : State) (n : Word) : (s.advance n).outIA = s.outIA := rfl
@[simp] theorem advance_outIB (s : State) (n : Word) : (s.advance n).outIB = s.outIB := rfl
@[simp] theorem advance_outF0 (s : State) (n : Word) : (s.advance n).outF0 = s.outF0 := rfl
@[simp] theorem advance_outC (s : State) (n : Word) : (s.advance n).outC = s.outC := rfl
@[simp] theorem advance_mem (s : State) (n : Word) : (s.advance n).mem = s.mem := rfl
@[simp] theorem advance_status (s : State) (n : Word) : (s.advance n).status = s.status := rfl
@[simp] theorem advance_inIA (s : State) (n : Word) : (s.advance n).inIA = s.inIA := rfl
@[simp] theorem advance_inIB (s : State) (n : Word) : (s.advance n).inIB = s.inIB := rfl
@[simp] theorem advance_inTest (s : State) (n : Word) : (s.advance n).inTest = s.inTest := rfl
@[simp] theorem advance_outputs (s : State) (n : Word) : (s.advance n).outputs = s.outputs := rfl
@[simp] theorem advance_hostR (s : State) (n : Word) : (s.advance n).hostR = s.hostR := rfl
@[simp] theorem advance_draws (s : State) (n : Word) : (s.advance n).draws = s.draws := rfl
@[simp] theorem advance_platform (s : State) (n : Word) : (s.advance n).platform = s.platform := rfl

/-! ### setFlags -/

@[simp] theorem setFlags_iram (s : State) (x y : Bool) : (s.setFlags x y).iram = s.iram := rfl
@[simp] theorem setFlags_p (s : State) (x y : Bool) : (s.setFlags x y).p = s.p := rfl
@[simp] theorem setFlags_q (s : State) (x y : Bool) : (s.setFlags x y).q = s.q := rfl
@[simp] theorem setFlags_r (s : State) (x y : Bool) : (s.setFlags x y).r = s.r := rfl
@[simp] theorem setFlags_pc (s : State) (x y : Bool) : (s.setFlags x y).pc = s.pc := rfl
@[simp] theorem setFlags_dp (s : State) (x y : Bool) : (s.setFlags x y).dp = s.dp := rfl
@[simp] theorem setFlags_c (s : State) (x y : Bool) : (s.setFlags x y).c = x := rfl
@[simp] theorem setFlags_z (s : State) (x y : Bool) : (s.setFlags x y).z = y := rfl
@[simp] theorem setFlags_d (s : State) (x y : Bool) : (s.setFlags x y).d = s.d := rfl
@[simp] theorem setFlags_tj (s : State) (x y : Bool) : (s.setFlags x y).tj = s.tj := rfl
@[simp] theorem setFlags_outIA (s : State) (x y : Bool) : (s.setFlags x y).outIA = s.outIA := rfl
@[simp] theorem setFlags_outIB (s : State) (x y : Bool) : (s.setFlags x y).outIB = s.outIB := rfl
@[simp] theorem setFlags_outF0 (s : State) (x y : Bool) : (s.setFlags x y).outF0 = s.outF0 := rfl
@[simp] theorem setFlags_outC (s : State) (x y : Bool) : (s.setFlags x y).outC = s.outC := rfl
@[simp] theorem setFlags_mem (s : State) (x y : Bool) : (s.setFlags x y).mem = s.mem := rfl
@[simp] theorem setFlags_status (s : State) (x y : Bool) : (s.setFlags x y).status = s.status := rfl
@[simp] theorem setFlags_inIA (s : State) (x y : Bool) : (s.setFlags x y).inIA = s.inIA := rfl
@[simp] theorem setFlags_inIB (s : State) (x y : Bool) : (s.setFlags x y).inIB = s.inIB := rfl
@[simp] theorem setFlags_inTest (s : State) (x y : Bool) : (s.setFlags x y).inTest = s.inTest := rfl
@[simp] theorem setFlags_outputs (s : State) (x y : Bool) : (s.setFlags x y).outputs = s.outputs := rfl
@[simp] theorem setFlags_hostR (s : State) (x y : Bool) : (s.setFlags x y).hostR = s.hostR := rfl
@[simp] theorem setFlags_draws (s : State) (x y : Bool) : (s.setFlags x y).draws = s.draws := rfl
@[simp] theorem setFlags_platform (s : State) (x y : Bool) : (s.setFlags x y).platform = s.platform := rfl

/-! ### countDown -/

@[simp] theorem countDown_iram (s : State) : s.countDown.iram = s.iram := rfl
@[simp] theorem countDown_p (s : State) : s.countDown.p = s.p := rfl
@[simp] theorem countDown_q (s : State) : s.countDown.q = s.q := rfl
@[simp] theorem countDown_r (s : State) : s.countDown.r = s.r := rfl
@[simp] theorem countDown_pc (s : State) : s.countDown.pc = s.pc := rfl
@[simp] theorem countDown_dp (s : State) : s.countDown.dp = s.dp := rfl
@[simp] theorem countDown_c (s : State) : s.countDown.c = s.c := rfl
@[simp] theorem countDown_z (s : State) : s.countDown.z = s.z := rfl
@[simp] theorem countDown_d (s : State) : s.countDown.d = s.d - 1 := rfl
@[simp] theorem countDown_tj (s : State) : s.countDown.tj = s.tj := rfl
@[simp] theorem countDown_outIA (s : State) : s.countDown.outIA = s.outIA := rfl
@[simp] theorem countDown_outIB (s : State) : s.countDown.outIB = s.outIB := rfl
@[simp] theorem countDown_outF0 (s : State) : s.countDown.outF0 = s.outF0 := rfl
@[simp] theorem countDown_outC (s : State) : s.countDown.outC = s.outC := rfl
@[simp] theorem countDown_mem (s : State) : s.countDown.mem = s.mem := rfl
@[simp] theorem countDown_status (s : State) : s.countDown.status = s.status := rfl
@[simp] theorem countDown_inIA (s : State) : s.countDown.inIA = s.inIA := rfl
@[simp] theorem countDown_inIB (s : State) : s.countDown.inIB = s.inIB := rfl
@[simp] theorem countDown_inTest (s : State) : s.countDown.inTest = s.inTest := rfl
@[simp] theorem countDown_outputs (s : State) : s.countDown.outputs = s.outputs := rfl
@[simp] theorem countDown_hostR (s : State) : s.countDown.hostR = s.hostR := rfl
@[simp] theorem countDown_draws (s : State) : s.countDown.draws = s.draws := rfl
@[simp] theorem countDown_platform (s : State) : s.countDown.platform = s.platform := rfl

/-! ### drawByte -/

@[simp] theorem drawByte_iram (s : State) : s.drawByte.2.iram = s.iram := rfl
@[simp] theorem drawByte_p (s : State) : s.drawByte.2.p = s.p := rfl
@[simp] theorem drawByte_q (s : State) : s.drawByte.2.q = s.q := rfl
@[simp] theorem drawByte_r (s : State) : s.drawByte.2.r = s.r := rfl
@[simp] theorem drawByte_pc (s : State) : s.drawByte.2.pc = s.pc := rfl
@[simp] theorem drawByte_dp (s : State) : s.drawByte.2.dp = s.dp := rfl
@[simp] theorem drawByte_c (s : State) : s.drawByte.2.c = s.c := rfl
@[simp] theorem drawByte_z (s : State) : s.drawByte.2.z = s.z := rfl
@[simp] theorem drawByte_d (s : State) : s.drawByte.2.d = s.d := rfl
@[simp] theorem drawByte_tj (s : State) : s.drawByte.2.tj = s.tj := rfl
@[simp] theorem drawByte_outIA (s : State) : s.drawByte.2.outIA = s.outIA := rfl
@[simp] theorem drawByte_outIB (s : State) : s.drawByte.2.outIB = s.outIB := rfl
@[simp] theorem drawByte_outF0 (s : State) : s.drawByte.2.outF0 = s.outF0 := rfl
@[simp] theorem drawByte_outC (s : State) : s.drawByte.2.outC = s.outC := rfl
@[simp] theorem drawByte_mem (s : State) : s.drawByte.2.mem = s.mem := rfl
@[simp] theorem drawByte_status (s : State) : s.drawByte.2.status = s.status := rfl
@[simp] theorem drawByte_inIA (s : State) : s.drawByte.2.inIA = s.inIA := rfl
@[simp] theorem drawByte_inIB (s : State) : s.drawByte.2.inIB = s.inIB := rfl
@[simp] theorem drawByte_inTest (s : State) : s.drawByte.2.inTest = s.inTest := rfl
@[simp] theorem drawByte_outputs (s : State) : s.drawByte.2.outputs = s.outputs := rfl
@[simp] theorem drawByte_hostR (s : State) : s.drawByte.2.hostR = s.hostR := rfl
@[simp] theorem drawByte_draws (s : State) : s.drawByte.2.draws = s.draws + 1 := rfl
@[simp] theorem drawByte_platform (s : State) : s.drawByte.2.platform = s.platform := rfl

/-! ### drawPtr -/

@[simp] theorem drawPtr_iram (s : State) : s.drawPtr.2.iram = s.iram := rfl
@[simp] theorem drawPtr_p (s : State) : s.drawPtr.2.p = s.p := rfl
@[simp] theorem drawPtr_q (s : State) : s.drawPtr.2.q = s.q := rfl
@[simp] theorem drawPtr_r (s : State) : s.drawPtr.2.r = s.r := rfl
@[simp] theorem drawPtr_pc (s : State) : s.drawPtr.2.pc = s.pc := rfl
@[simp] theorem drawPtr_dp (s : State) : s.drawPtr.2.dp = s.dp := rfl
@[simp] theorem drawPtr_c (s : State) : s.drawPtr.2.c = s.c := rfl
@[simp] theorem drawPtr_z (s : State) : s.drawPtr.2.z = s.z := rfl
@[simp] theorem drawPtr_d (s : State) : s.drawPtr.2.d = s.d := rfl
@[simp] theorem drawPtr_tj (s : State) : s.drawPtr.2.tj = s.tj := rfl
@[simp] theorem drawPtr_outIA (s : State) : s.drawPtr.2.outIA = s.outIA := rfl
@[simp] theorem drawPtr_outIB (s : State) : s.drawPtr.2.outIB = s.outIB := rfl
@[simp] theorem drawPtr_outF0 (s : State) : s.drawPtr.2.outF0 = s.outF0 := rfl
@[simp] theorem drawPtr_outC (s : State) : s.drawPtr.2.outC = s.outC := rfl
@[simp] theorem drawPtr_mem (s : State) : s.drawPtr.2.mem = s.mem := rfl
@[simp] theorem drawPtr_status (s : State) : s.drawPtr.2.status = s.status := rfl
@[simp] theorem drawPtr_inIA (s : State) : s.drawPtr.2.inIA = s.inIA := rfl
@[simp] theorem drawPtr_inIB (s : State) : s.drawPtr.2.inIB = s.inIB := rfl
@[simp] theorem drawPtr_inTest (s : State) : s.drawPtr.2.inTest = s.inTest := rfl
@[simp] theorem drawPtr_outputs (s : State) : s.drawPtr.2.outputs = s.outputs := rfl
@[simp] theorem drawPtr_hostR (s : State) : s.drawPtr.2.hostR = s.hostR := rfl
@[simp] theorem drawPtr_draws (s : State) : s.drawPtr.2.draws = s.draws + 1 := rfl
@[simp] theorem drawPtr_platform (s : State) : s.drawPtr.2.platform = s.platform := rfl

/-! ### drawFlag -/

@[simp] theorem drawFlag_iram (s : State) : s.drawFlag.2.iram = s.iram := rfl
@[simp] theorem drawFlag_p (s : State) : s.drawFlag.2.p = s.p := rfl
@[simp] theorem drawFlag_q (s : State) : s.drawFlag.2.q = s.q := rfl
@[simp] theorem drawFlag_r (s : State) : s.drawFlag.2.r = s.r := rfl
@[simp] theorem drawFlag_pc (s : State) : s.drawFlag.2.pc = s.pc := rfl
@[simp] theorem drawFlag_dp (s : State) : s.drawFlag.2.dp = s.dp := rfl
@[simp] theorem drawFlag_c (s : State) : s.drawFlag.2.c = s.c := rfl
@[simp] theorem drawFlag_z (s : State) : s.drawFlag.2.z = s.z := rfl
@[simp] theorem drawFlag_d (s : State) : s.drawFlag.2.d = s.d := rfl
@[simp] theorem drawFlag_tj (s : State) : s.drawFlag.2.tj = s.tj := rfl
@[simp] theorem drawFlag_outIA (s : State) : s.drawFlag.2.outIA = s.outIA := rfl
@[simp] theorem drawFlag_outIB (s : State) : s.drawFlag.2.outIB = s.outIB := rfl
@[simp] theorem drawFlag_outF0 (s : State) : s.drawFlag.2.outF0 = s.outF0 := rfl
@[simp] theorem drawFlag_outC (s : State) : s.drawFlag.2.outC = s.outC := rfl
@[simp] theorem drawFlag_mem (s : State) : s.drawFlag.2.mem = s.mem := rfl
@[simp] theorem drawFlag_status (s : State) : s.drawFlag.2.status = s.status := rfl
@[simp] theorem drawFlag_inIA (s : State) : s.drawFlag.2.inIA = s.inIA := rfl
@[simp] theorem drawFlag_inIB (s : State) : s.drawFlag.2.inIB = s.inIB := rfl
@[simp] theorem drawFlag_inTest (s : State) : s.drawFlag.2.inTest = s.inTest := rfl
@[simp] theorem drawFlag_outputs (s : State) : s.drawFlag.2.outputs = s.outputs := rfl
@[simp] theorem drawFlag_hostR (s : State) : s.drawFlag.2.hostR = s.hostR := rfl
@[simp] theorem drawFlag_draws (s : State) : s.drawFlag.2.draws = s.draws + 1 := rfl
@[simp] theorem drawFlag_platform (s : State) : s.drawFlag.2.platform = s.platform := rfl

/-! ### The values drawn -/

@[simp] theorem drawByte_value (s : State) : s.drawByte.1 = Config.anyByte s.draws := rfl
@[simp] theorem drawPtr_value (s : State) : s.drawPtr.1 = Config.anyPtr s.draws := rfl
@[simp] theorem drawFlag_value (s : State) : s.drawFlag.1 = Config.anyFlag s.draws := rfl

/-! ### Views of the state

What a view reads is the same in two states that agree on the fields it reads; the views are then the same after any
update that writes none of them. -/

/-- A cell of internal RAM is a function of the field `iram`. -/
theorem iramGet_congr (s t : State) (a : Ptr) (h : t.iram = s.iram) : t.iramGet a = s.iramGet a := by
  simp only [State.iramGet, h]

/-- Whether an address exists is a function of the platform. -/
theorem implemented_congr (s t : State) (a : Ptr) (h : t.platform = s.platform) :
    t.implemented a = s.implemented a := by
  simp only [State.implemented, h]

/-- What answers at an address is a function of the platform. -/
theorem backing_congr (s t : State) (a : Word) (h : t.platform = s.platform) : t.backing a = s.backing a := by
  simp only [State.backing, h]

/-- The byte memory holds is a function of the field `mem`. -/
theorem storedByte_congr (s t : State) (a : Word) (h : t.mem = s.mem) : t.storedByte a = s.storedByte a := by
  simp only [State.storedByte, h]

/-! ### Views of a state written out

A record update of `s` is a state written out field by field. Each view of it is a function of one field, and that
function of a field of `s` is the view of `s` again. -/

/-- The cell of an internal RAM at `a`. -/
def cellOf (iram : Vector Byte 128) (a : Ptr) : Byte := iram[a.toNat]'a.isLt

/-- Internal-RAM address `a` exists on a platform. -/
def existsOn (platform : Platform) (a : Ptr) : Bool := decide (a ≤ topAddress platform.iramTop)

/-- The byte a memory holds at `a`. -/
def byteOf (mem : Memory) (a : Word) : Byte := (mem.lookup a.toNat).getD (Config.initialByte a.toNat)

/-- What answers at `a` on a platform. -/
def backingOn (platform : Platform) (a : Word) : Backing :=
  if a < 0x2000 then .internalRom
  else match platform.memmap.find? (regionCovers · a) with
    | some g => backingOfKind g.kind
    | none => .nothing

@[simp] theorem cellOf_iram (s : State) (a : Ptr) : cellOf s.iram a = s.iramGet a := rfl
@[simp] theorem existsOn_platform (s : State) (a : Ptr) : existsOn s.platform a = s.implemented a := rfl
@[simp] theorem byteOf_mem (s : State) (a : Word) : byteOf s.mem a = s.storedByte a := rfl
@[simp] theorem backingOn_platform (s : State) (a : Word) : backingOn s.platform a = s.backing a := rfl

section

variable {iram' : Vector Byte 128} {p' q' r' : Ptr} {pc' dp' : Word} {c' z' : Bool} {d' : Byte} {tj' : Option Byte}
  {outIA' outIB' outF0' outC' : Byte} {mem' : Memory} {status' : Status} {inIA' inIB' inTest' : List Byte}
  {outputs' : List OutEvent} {hostR' : Option Ptr} {draws' : Nat} {platform' : Platform}

@[simp] theorem iramGet_mk (a : Ptr) :
    (State.mk iram' p' q' r' pc' dp' c' z' d' tj' outIA' outIB' outF0' outC' mem' status' inIA' inIB' inTest' outputs' hostR' draws' platform').iramGet a =
      cellOf iram' a := rfl

@[simp] theorem reg_mk (g : Reg) :
    (State.mk iram' p' q' r' pc' dp' c' z' d' tj' outIA' outIB' outF0' outC' mem' status' inIA' inIB' inTest' outputs' hostR' draws' platform').reg g =
      cellOf iram' (regAddr g) := rfl

@[simp] theorem implemented_mk (a : Ptr) :
    (State.mk iram' p' q' r' pc' dp' c' z' d' tj' outIA' outIB' outF0' outC' mem' status' inIA' inIB' inTest' outputs' hostR' draws' platform').implemented a =
      existsOn platform' a := rfl

@[simp] theorem backing_mk (a : Word) :
    (State.mk iram' p' q' r' pc' dp' c' z' d' tj' outIA' outIB' outF0' outC' mem' status' inIA' inIB' inTest' outputs' hostR' draws' platform').backing a =
      backingOn platform' a := rfl

@[simp] theorem storedByte_mk (a : Word) :
    (State.mk iram' p' q' r' pc' dp' c' z' d' tj' outIA' outIB' outF0' outC' mem' status' inIA' inIB' inTest' outputs' hostR' draws' platform').storedByte a =
      byteOf mem' a := rfl

end

/-! ### Views through the updates -/

@[simp] theorem iramGet_storeByte (s : State) (a : Word) (v : Byte) (a' : Ptr) : (s.storeByte a v).iramGet a' = s.iramGet a' := rfl
@[simp] theorem iramGet_advance (s : State) (n : Word) (a' : Ptr) : (s.advance n).iramGet a' = s.iramGet a' := rfl
@[simp] theorem iramGet_setFlags (s : State) (x y : Bool) (a' : Ptr) : (s.setFlags x y).iramGet a' = s.iramGet a' := rfl
@[simp] theorem iramGet_countDown (s : State) (a' : Ptr) : s.countDown.iramGet a' = s.iramGet a' := rfl
@[simp] theorem iramGet_drawByte (s : State) (a' : Ptr) : s.drawByte.2.iramGet a' = s.iramGet a' := rfl
@[simp] theorem iramGet_drawPtr (s : State) (a' : Ptr) : s.drawPtr.2.iramGet a' = s.iramGet a' := rfl
@[simp] theorem iramGet_drawFlag (s : State) (a' : Ptr) : s.drawFlag.2.iramGet a' = s.iramGet a' := rfl

@[simp] theorem implemented_iramSet (s : State) (a : Ptr) (v : Byte) (a' : Ptr) : (s.iramSet a v).implemented a' = s.implemented a' := rfl
@[simp] theorem implemented_setReg (s : State) (g : Reg) (v : Byte) (a' : Ptr) : (s.setReg g v).implemented a' = s.implemented a' := rfl
@[simp] theorem implemented_setPair (s : State) (g h : Reg) (w : Word) (a' : Ptr) : (s.setPair g h w).implemented a' = s.implemented a' := rfl
@[simp] theorem implemented_storeByte (s : State) (a : Word) (v : Byte) (a' : Ptr) : (s.storeByte a v).implemented a' = s.implemented a' := rfl
@[simp] theorem implemented_advance (s : State) (n : Word) (a' : Ptr) : (s.advance n).implemented a' = s.implemented a' := rfl
@[simp] theorem implemented_setFlags (s : State) (x y : Bool) (a' : Ptr) : (s.setFlags x y).implemented a' = s.implemented a' := rfl
@[simp] theorem implemented_countDown (s : State) (a' : Ptr) : s.countDown.implemented a' = s.implemented a' := rfl
@[simp] theorem implemented_drawByte (s : State) (a' : Ptr) : s.drawByte.2.implemented a' = s.implemented a' := rfl
@[simp] theorem implemented_drawPtr (s : State) (a' : Ptr) : s.drawPtr.2.implemented a' = s.implemented a' := rfl
@[simp] theorem implemented_drawFlag (s : State) (a' : Ptr) : s.drawFlag.2.implemented a' = s.implemented a' := rfl

@[simp] theorem backing_iramSet (s : State) (a : Ptr) (v : Byte) (a' : Word) : (s.iramSet a v).backing a' = s.backing a' := rfl
@[simp] theorem backing_setReg (s : State) (g : Reg) (v : Byte) (a' : Word) : (s.setReg g v).backing a' = s.backing a' := rfl
@[simp] theorem backing_setPair (s : State) (g h : Reg) (w : Word) (a' : Word) : (s.setPair g h w).backing a' = s.backing a' := rfl
@[simp] theorem backing_storeByte (s : State) (a : Word) (v : Byte) (a' : Word) : (s.storeByte a v).backing a' = s.backing a' := rfl
@[simp] theorem backing_advance (s : State) (n : Word) (a' : Word) : (s.advance n).backing a' = s.backing a' := rfl
@[simp] theorem backing_setFlags (s : State) (x y : Bool) (a' : Word) : (s.setFlags x y).backing a' = s.backing a' := rfl
@[simp] theorem backing_countDown (s : State) (a' : Word) : s.countDown.backing a' = s.backing a' := rfl
@[simp] theorem backing_drawByte (s : State) (a' : Word) : s.drawByte.2.backing a' = s.backing a' := rfl
@[simp] theorem backing_drawPtr (s : State) (a' : Word) : s.drawPtr.2.backing a' = s.backing a' := rfl
@[simp] theorem backing_drawFlag (s : State) (a' : Word) : s.drawFlag.2.backing a' = s.backing a' := rfl

@[simp] theorem storedByte_iramSet (s : State) (a : Ptr) (v : Byte) (a' : Word) : (s.iramSet a v).storedByte a' = s.storedByte a' := rfl
@[simp] theorem storedByte_setReg (s : State) (g : Reg) (v : Byte) (a' : Word) : (s.setReg g v).storedByte a' = s.storedByte a' := rfl
@[simp] theorem storedByte_setPair (s : State) (g h : Reg) (w : Word) (a' : Word) : (s.setPair g h w).storedByte a' = s.storedByte a' := rfl
@[simp] theorem storedByte_advance (s : State) (n : Word) (a' : Word) : (s.advance n).storedByte a' = s.storedByte a' := rfl
@[simp] theorem storedByte_setFlags (s : State) (x y : Bool) (a' : Word) : (s.setFlags x y).storedByte a' = s.storedByte a' := rfl
@[simp] theorem storedByte_countDown (s : State) (a' : Word) : s.countDown.storedByte a' = s.storedByte a' := rfl
@[simp] theorem storedByte_drawByte (s : State) (a' : Word) : s.drawByte.2.storedByte a' = s.storedByte a' := rfl
@[simp] theorem storedByte_drawPtr (s : State) (a' : Word) : s.drawPtr.2.storedByte a' = s.storedByte a' := rfl
@[simp] theorem storedByte_drawFlag (s : State) (a' : Word) : s.drawFlag.2.storedByte a' = s.storedByte a' := rfl

@[simp] theorem reg_storeByte (s : State) (a : Word) (v : Byte) (g' : Reg) : (s.storeByte a v).reg g' = s.reg g' := rfl
@[simp] theorem reg_advance (s : State) (n : Word) (g' : Reg) : (s.advance n).reg g' = s.reg g' := rfl
@[simp] theorem reg_setFlags (s : State) (x y : Bool) (g' : Reg) : (s.setFlags x y).reg g' = s.reg g' := rfl
@[simp] theorem reg_countDown (s : State) (g' : Reg) : s.countDown.reg g' = s.reg g' := rfl
@[simp] theorem reg_drawByte (s : State) (g' : Reg) : s.drawByte.2.reg g' = s.reg g' := rfl
@[simp] theorem reg_drawPtr (s : State) (g' : Reg) : s.drawPtr.2.reg g' = s.reg g' := rfl
@[simp] theorem reg_drawFlag (s : State) (g' : Reg) : s.drawFlag.2.reg g' = s.reg g' := rfl

/-- A cell of internal RAM after a write: the byte written at its address, what it was elsewhere. -/
@[simp] theorem iramGet_iramSet (s : State) (a b : Ptr) (v : Byte) :
    (s.iramSet a v).iramGet b = if a = b then v else s.iramGet b := by
  simp only [State.iramGet, State.iramSet, Vector.getElem_set, BitVec.toNat_inj]

/-- The same for a register written by name. -/
@[simp] theorem iramGet_setReg (s : State) (g : Reg) (b : Ptr) (v : Byte) :
    (s.setReg g v).iramGet b = if regAddr g = b then v else s.iramGet b :=
  iramGet_iramSet s (regAddr g) b v

/-- Two registers share an address only if they are the same register (10_state.md rule R22). -/
theorem regAddr_injective (g h : Reg) (same : regAddr g = regAddr h) : g = h := by
  cases g <;> cases h <;> first | rfl | exact absurd same (by decide)

/-- A register read by name is the cell at its address. -/
theorem reg_eq_iramGet (s : State) (g : Reg) : s.reg g = s.iramGet (regAddr g) := rfl

/-- A register after a register was written. -/
@[simp] theorem reg_setReg (s : State) (g h : Reg) (v : Byte) :
    (s.setReg g v).reg h = if g = h then v else s.reg h := by
  rw [reg_eq_iramGet, iramGet_setReg]
  by_cases e : g = h
  · simp [e]
  · rw [if_neg e, if_neg (fun same => e (regAddr_injective g h same)), reg_eq_iramGet]

/-- A register after a cell was written: the cell may be the register's. -/
@[simp] theorem reg_iramSet (s : State) (a : Ptr) (g : Reg) (v : Byte) :
    (s.iramSet a v).reg g = if a = regAddr g then v else s.reg g :=
  iramGet_iramSet s a (regAddr g) v

/-- Every register is below every `IRAM_TOP` (R22, R29). -/
@[simp] theorem implemented_regAddr (s : State) (g : Reg) : s.implemented (regAddr g) = true := by
  have both : ∀ (top : IramTop) (g : Reg), regAddr g ≤ topAddress top := by
    intro top g
    cases top <;> cases g <;> decide
  simpa [State.implemented] using both s.platform.iramTop g

/-- Where `IRAM_TOP` is &7F every internal-RAM address exists (R29). -/
theorem implemented_at7F (s : State) (a : Ptr) (h : s.platform.iramTop = .at7F) : s.implemented a = true := by
  have all : ∀ a : Ptr, a ≤ 0x7F := by decide
  simpa [State.implemented, h, topAddress] using all a

end Sys2Proof.Machine
end

