-- ==== Sys2Proof/Laws/Ops.lean ====
section
/-! SUPPORT. For each shared operation of Machine/Ops.lean and Machine/Operands.lean, once, all it can do: if it
answers, then with this, and these fields are as they were. -/

namespace Sys2Proof.Machine

/-! ### Outcomes -/

/-- A computation in two parts succeeds exactly when both do. -/
theorem bind_eq_ok {α β : Type} (x : Except Fault α) (f : α → Except Fault β) (b : β) :
    (x >>= f) = .ok b ↔ ∃ a, x = .ok a ∧ f a = .ok b := by
  cases x with
  | error e => exact ⟨fun h => (nomatch h), fun ⟨_, h, _⟩ => (nomatch h)⟩
  | ok a => exact ⟨fun h => ⟨a, rfl, h⟩, fun ⟨_, h, g⟩ => by cases h; exact g⟩

/-- It raises exactly when the first part does, or the second after it: the first line that raises wins (R383). -/
theorem bind_eq_error {α β : Type} (x : Except Fault α) (f : α → Except Fault β) (e : Fault) :
    (x >>= f) = .error e ↔ x = .error e ∨ ∃ a, x = .ok a ∧ f a = .error e := by
  cases x with
  | error e' =>
    refine ⟨fun h => .inl ?_, fun h => ?_⟩
    · cases h; rfl
    · rcases h with h | ⟨_, h, _⟩ <;> cases h
      rfl
  | ok a =>
    refine ⟨fun h => .inr ⟨a, rfl, h⟩, fun h => ?_⟩
    rcases h with h | ⟨_, h, g⟩ <;> cases h
    exact g

/-- A known first part leaves the second. -/
@[simp] theorem ok_bind {α β : Type} (a : α) (f : α → Except Fault β) :
    ((Except.ok a : Except Fault α) >>= f) = f a := rfl

/-- A first part that raises ends the whole. -/
@[simp] theorem error_bind {α β : Type} (e : Fault) (f : α → Except Fault β) :
    ((Except.error e : Except Fault α) >>= f) = .error e := rfl

@[simp] theorem outcome_ok (t : State) : outcome (.ok t) = .next t := rfl

@[simp] theorem outcome_error (f : Fault) : outcome (.error f) = .fault f := rfl

/-- A next state comes from a computation that reached its end. -/
theorem outcome_eq_next (x : Except Fault State) (t : State) : outcome x = .next t ↔ x = .ok t := by
  cases x with
  | error e => exact ⟨fun h => (nomatch h), fun h => (nomatch h)⟩
  | ok u => exact ⟨fun h => by cases h; rfl, fun h => by cases h; rfl⟩

/-- A fault comes from a computation that raised it. -/
theorem outcome_eq_fault (x : Except Fault State) (f : Fault) : outcome x = .fault f ↔ x = .error f := by
  cases x with
  | error e => exact ⟨fun h => by cases h; rfl, fun h => by cases h; rfl⟩
  | ok u => exact ⟨fun h => (nomatch h), fun h => (nomatch h)⟩

/-- No computation is refused. -/
theorem outcome_ne_refused (x : Except Fault State) (r : Refusal) : outcome x ≠ .refused r := by
  cases x <;> exact fun h => by cases h

/-! ### Memory cells -/

/-- A cell after a write: the byte written at its address, what it was elsewhere. -/
theorem lookup_write (m : Memory) (a b : Nat) (v : Byte) :
    (m.write a v).lookup b = if a = b then some v else m.lookup b := by
  induction m with
  | nil => rfl
  | cons cell m ih =>
    obtain ⟨k, w⟩ := cell
    simp only [Memory.write]
    split
    · rfl
    · split
      · rename_i _ same
        subst same
        simp only [Memory.lookup]
        split <;> rfl
      · rename_i _ other
        simp only [Memory.lookup, ih]
        split
        · rename_i here
          rw [if_neg (fun h => other (by omega))]
        · rfl

/-- The addresses a write lists: its own and those listed before. -/
theorem mem_write (m : Memory) (a : Nat) (v : Byte) (cell : Host.Cell) (h : cell ∈ m.write a v) :
    cell = (a, v) ∨ cell ∈ m := by
  induction m with
  | nil => exact .inl (by simpa [Memory.write] using h)
  | cons first m ih =>
    obtain ⟨k, w⟩ := first
    simp only [Memory.write] at h
    split at h
    · simpa using h
    · split at h
      · rcases List.mem_cons.mp h with h | h
        · exact .inl h
        · exact .inr (List.mem_cons_of_mem _ h)
      · rcases List.mem_cons.mp h with h | h
        · exact .inr (h ▸ List.mem_cons_self)
        · exact (ih h).imp_right (List.mem_cons_of_mem _)

/-- A write inside the 16-bit space keeps the canonical form. -/
theorem write_wf (m : Memory) (a : Nat) (v : Byte) (inside : a < 0x10000) (h : m.wf) : (m.write a v).wf := by
  refine ⟨?_, fun cell listed => ?_⟩
  · have rising := h.1
    clear h
    induction m with
    | nil => exact List.pairwise_singleton _ _
    | cons first m ih =>
      obtain ⟨k, w⟩ := first
      obtain ⟨above, rest⟩ := List.pairwise_cons.mp rising
      simp only [Memory.write]
      split
      · rename_i below
        refine List.pairwise_cons.mpr ⟨fun cell listed => ?_, rising⟩
        rcases List.mem_cons.mp listed with here | listed
        · exact here ▸ below
        · exact Nat.lt_trans below (above cell listed)
      · split
        · rename_i same
          exact List.pairwise_cons.mpr ⟨fun cell listed => same ▸ above cell listed, rest⟩
        · rename_i notBelow other
          refine List.pairwise_cons.mpr ⟨fun cell listed => ?_, ih rest⟩
          rcases mem_write m a v cell listed with here | listed
          · exact here ▸ (show k < a by omega)
          · exact above cell listed
  · rcases mem_write m a v cell listed with here | listed
    · exact here ▸ inside
    · exact h.2 cell listed

/-- Memory with nothing listed is in canonical form. -/
theorem reset_mem_wf : State.reset.mem.wf := ⟨List.Pairwise.nil, fun _ h => (nomatch h)⟩

/-- A cell list in rising order finds nothing at an address below all it lists. -/
theorem lookup_below (m : Memory) (a : Nat) (h : ∀ cell ∈ m, a < cell.1) : m.lookup a = none := by
  induction m with
  | nil => rfl
  | cons first m ih =>
    obtain ⟨k, w⟩ := first
    have := h (k, w) List.mem_cons_self
    simp only [Memory.lookup]
    rw [if_neg (by simp only at this; omega)]
    exact ih fun cell listed => h cell (List.mem_cons_of_mem _ listed)

/-- Two memories in canonical form that list the same byte at every address are equal data. -/
theorem memory_ext (m n : Memory) (hm : m.wf) (hn : n.wf) (same : ∀ a, m.lookup a = n.lookup a) : m = n := by
  replace hm := hm.1
  replace hn := hn.1
  induction m generalizing n with
  | nil =>
    cases n with
    | nil => rfl
    | cons first n =>
      have := same first.1
      simp [Memory.lookup] at this
  | cons first m ih =>
    obtain ⟨k, w⟩ := first
    cases n with
    | nil =>
      have := same k
      simp [Memory.lookup] at this
    | cons second n =>
      obtain ⟨l, v⟩ := second
      obtain ⟨aboveM, restM⟩ := List.pairwise_cons.mp hm
      obtain ⟨aboveN, restN⟩ := List.pairwise_cons.mp hn
      have heads : k = l := by
        rcases Nat.lt_trichotomy k l with h | h | h
        · have eq := same k
          simp only [Memory.lookup, if_pos] at eq
          rw [if_neg (by omega), lookup_below n k fun c hc => Nat.lt_trans h (aboveN c hc)] at eq
          cases eq
        · exact h
        · have eq := same l
          simp only [Memory.lookup, if_pos] at eq
          rw [if_neg (by omega), lookup_below m l fun c hc => Nat.lt_trans h (aboveM c hc)] at eq
          cases eq
      subst heads
      have values : w = v := by simpa [Memory.lookup] using same k
      subst values
      refine congrArg _ (ih n (fun a => ?_) restM restN)
      by_cases here : k = a
      · subst here
        rw [lookup_below m k aboveM, lookup_below n k aboveN]
      · simpa [Memory.lookup, here] using same a

/-- The byte memory holds after a store. -/
@[simp] theorem storedByte_storeByte (s : State) (a b : Word) (v : Byte) :
    (s.storeByte a v).storedByte b = if a = b then v else s.storedByte b := by
  simp only [State.storedByte, storeByte_mem, lookup_write, BitVec.toNat_inj]
  split <;> rfl

/-! ### Internal RAM -/

/-- A read of internal RAM answers exactly where the address exists, with the cell. -/
theorem readIram_eq_ok (s : State) (a : Ptr) (v : Byte) :
    s.readIram a = .ok v ↔ s.implemented a = true ∧ v = s.iramGet a := by
  unfold State.readIram
  split
  · exact ⟨fun h => ⟨‹_›, by cases h; rfl⟩, fun h => by rw [h.2]⟩
  · exact ⟨fun h => (nomatch h), fun h => absurd h.1 ‹_›⟩

/-- Elsewhere it raises. -/
theorem readIram_eq_error (s : State) (a : Ptr) (f : Fault) :
    s.readIram a = .error f ↔ s.implemented a = false ∧ f = .unimplementedIram a := by
  unfold State.readIram
  split
  · exact ⟨fun h => (nomatch h), fun h => absurd (h.1 ▸ ‹s.implemented a = true›) (by decide)⟩
  · exact ⟨fun h => ⟨Bool.eq_false_iff.mpr ‹_›, by cases h; rfl⟩, fun h => by rw [h.2]⟩

/-- A write of internal RAM answers exactly where the address exists, with that one cell set. -/
theorem writeIram_eq_ok (s t : State) (a : Ptr) (v : Byte) :
    s.writeIram a v = .ok t ↔ s.implemented a = true ∧ t = s.iramSet a v := by
  unfold State.writeIram
  split
  · exact ⟨fun h => ⟨‹_›, by cases h; rfl⟩, fun h => by rw [h.2]⟩
  · exact ⟨fun h => (nomatch h), fun h => absurd h.1 ‹_›⟩

/-- Elsewhere it raises. -/
theorem writeIram_eq_error (s : State) (a : Ptr) (v : Byte) (f : Fault) :
    s.writeIram a v = .error f ↔ s.implemented a = false ∧ f = .unimplementedIram a := by
  unfold State.writeIram
  split
  · exact ⟨fun h => (nomatch h), fun h => absurd (h.1 ▸ ‹s.implemented a = true›) (by decide)⟩
  · exact ⟨fun h => ⟨Bool.eq_false_iff.mpr ‹_›, by cases h; rfl⟩, fun h => by rw [h.2]⟩

/-- A read where the address exists. -/
theorem readIram_implemented (s : State) (a : Ptr) (h : s.implemented a = true) : s.readIram a = .ok (s.iramGet a) :=
  (readIram_eq_ok s a _).mpr ⟨h, rfl⟩

/-- A write where the address exists. -/
theorem writeIram_implemented (s : State) (a : Ptr) (v : Byte) (h : s.implemented a = true) :
    s.writeIram a v = .ok (s.iramSet a v) :=
  (writeIram_eq_ok s _ a v).mpr ⟨h, rfl⟩

/-- The operand of ADB and SBB: both bytes exist, the one at P + 1 the high one. -/
theorem wordAtP_eq_ok (s : State) (w : Word) :
    s.wordAtP = .ok w ↔ s.implemented s.p = true ∧ s.implemented (s.p + 1) = true ∧
      w = joinBytes (s.iramGet (s.p + 1)) (s.iramGet s.p) := by
  simp only [State.wordAtP, bind_eq_ok, readIram_eq_ok]
  constructor
  · rintro ⟨lo, ⟨h, rfl⟩, hi, ⟨g, rfl⟩, e⟩
    cases e
    exact ⟨h, g, rfl⟩
  · rintro ⟨h, g, rfl⟩
    exact ⟨_, ⟨h, rfl⟩, _, ⟨g, rfl⟩, rfl⟩

/-- The same operand written: low byte at P, high byte at P + 1, P one on. -/
theorem setWordAtP_eq_ok (s t : State) (w : Word) :
    s.setWordAtP w = .ok t ↔ s.implemented s.p = true ∧ s.implemented (s.p + 1) = true ∧
      t = { (s.iramSet s.p (loByte w)).iramSet (s.p + 1) (hiByte w) with p := s.p + 1 } := by
  simp only [State.setWordAtP, bind_eq_ok, writeIram_eq_ok]
  constructor
  · rintro ⟨u, ⟨h, rfl⟩, v, ⟨g, rfl⟩, e⟩
    cases e
    exact ⟨h, g, rfl⟩
  · rintro ⟨h, g, rfl⟩
    exact ⟨_, ⟨h, rfl⟩, _, ⟨g, rfl⟩, rfl⟩

/-- A push of two bytes: the high one at R - 1, the low one at R - 2, R two down. -/
theorem pushWord_eq_ok (s t : State) (w : Word) :
    s.pushWord w = .ok t ↔ s.implemented (s.r - 1) = true ∧ s.implemented (s.r - 2) = true ∧
      t = { (s.iramSet (s.r - 1) (hiByte w)).iramSet (s.r - 2) (loByte w) with r := s.r - 2 } := by
  simp only [State.pushWord, bind_eq_ok, writeIram_eq_ok]
  constructor
  · rintro ⟨u, ⟨h, rfl⟩, v, ⟨g, rfl⟩, e⟩
    cases e
    exact ⟨h, g, rfl⟩
  · rintro ⟨h, g, rfl⟩
    exact ⟨_, ⟨h, rfl⟩, _, ⟨g, rfl⟩, rfl⟩

/-! ### The 16-bit spaces -/

/-- A data read either leaves the state and gives a byte, or draws one. -/
theorem memRead_state (s : State) (a : Word) : (s.memRead a).2 = s ∨ (s.memRead a).2 = s.drawByte.2 := by
  unfold State.memRead
  split
  · exact .inl rfl
  · exact .inl rfl
  · exact .inl rfl
  · exact .inr rfl
  · exact .inr rfl

/-- The same for a program-space read. -/
theorem codeRead_state (s : State) (a : Word) : (s.codeRead a).2 = s ∨ (s.codeRead a).2 = s.drawByte.2 := by
  unfold State.codeRead
  split
  · exact .inl rfl
  · exact .inl rfl
  · exact .inl rfl
  · exact .inr rfl
  · exact .inr rfl

/-- A data write stores the byte, hands it to a device, or has no effect. -/
theorem memWrite_cases (s : State) (a : Word) (v : Byte) :
    (s.backing a = .ram ∧ s.memWrite a v = s.storeByte a v) ∨
    (s.backing a = .device ∧ s.memWrite a v = { s with outputs := s.outputs ++ [OutEvent.device a v] }) ∨
    (s.backing a ≠ .ram ∧ s.backing a ≠ .device ∧ s.memWrite a v = s) := by
  unfold State.memWrite
  split <;> simp_all

/-- What a draw keeps, a data read keeps. -/
theorem memRead_keeps {β : Type} (s : State) (a : Word) (view : State → β)
    (kept : view s.drawByte.2 = view s) : view (s.memRead a).2 = view s := by
  rcases memRead_state s a with h | h <;> rw [h]
  exact kept

/-- What a draw keeps, a program-space read keeps. -/
theorem codeRead_keeps {β : Type} (s : State) (a : Word) (view : State → β)
    (kept : view s.drawByte.2 = view s) : view (s.codeRead a).2 = view s := by
  rcases codeRead_state s a with h | h <;> rw [h]
  exact kept

/-- What a store and an output keep, a data write keeps. -/
theorem memWrite_keeps {β : Type} (s : State) (a : Word) (v : Byte) (view : State → β)
    (store : view (s.storeByte a v) = view s) (tell : ∀ l, view { s with outputs := l } = view s) :
    view (s.memWrite a v) = view s := by
  rcases memWrite_cases s a v with ⟨_, h⟩ | ⟨_, h⟩ | ⟨_, _, h⟩ <;> rw [h]
  · exact store
  · exact tell _

@[simp] theorem memRead_iram (s : State) (a : Word) : (s.memRead a).2.iram = s.iram := memRead_keeps s a (·.iram) rfl

@[simp] theorem memRead_p (s : State) (a : Word) : (s.memRead a).2.p = s.p := memRead_keeps s a (·.p) rfl

@[simp] theorem memRead_q (s : State) (a : Word) : (s.memRead a).2.q = s.q := memRead_keeps s a (·.q) rfl

@[simp] theorem memRead_r (s : State) (a : Word) : (s.memRead a).2.r = s.r := memRead_keeps s a (·.r) rfl

@[simp] theorem memRead_pc (s : State) (a : Word) : (s.memRead a).2.pc = s.pc := memRead_keeps s a (·.pc) rfl

@[simp] theorem memRead_dp (s : State) (a : Word) : (s.memRead a).2.dp = s.dp := memRead_keeps s a (·.dp) rfl

@[simp] theorem memRead_c (s : State) (a : Word) : (s.memRead a).2.c = s.c := memRead_keeps s a (·.c) rfl

@[simp] theorem memRead_z (s : State) (a : Word) : (s.memRead a).2.z = s.z := memRead_keeps s a (·.z) rfl

@[simp] theorem memRead_d (s : State) (a : Word) : (s.memRead a).2.d = s.d := memRead_keeps s a (·.d) rfl

@[simp] theorem memRead_tj (s : State) (a : Word) : (s.memRead a).2.tj = s.tj := memRead_keeps s a (·.tj) rfl

@[simp] theorem memRead_outIA (s : State) (a : Word) : (s.memRead a).2.outIA = s.outIA := memRead_keeps s a (·.outIA) rfl

@[simp] theorem memRead_outIB (s : State) (a : Word) : (s.memRead a).2.outIB = s.outIB := memRead_keeps s a (·.outIB) rfl

@[simp] theorem memRead_outF0 (s : State) (a : Word) : (s.memRead a).2.outF0 = s.outF0 := memRead_keeps s a (·.outF0) rfl

@[simp] theorem memRead_outC (s : State) (a : Word) : (s.memRead a).2.outC = s.outC := memRead_keeps s a (·.outC) rfl

@[simp] theorem memRead_mem (s : State) (a : Word) : (s.memRead a).2.mem = s.mem := memRead_keeps s a (·.mem) rfl

@[simp] theorem memRead_status (s : State) (a : Word) : (s.memRead a).2.status = s.status := memRead_keeps s a (·.status) rfl

@[simp] theorem memRead_inIA (s : State) (a : Word) : (s.memRead a).2.inIA = s.inIA := memRead_keeps s a (·.inIA) rfl

@[simp] theorem memRead_inIB (s : State) (a : Word) : (s.memRead a).2.inIB = s.inIB := memRead_keeps s a (·.inIB) rfl

@[simp] theorem memRead_inTest (s : State) (a : Word) : (s.memRead a).2.inTest = s.inTest := memRead_keeps s a (·.inTest) rfl

@[simp] theorem memRead_outputs (s : State) (a : Word) : (s.memRead a).2.outputs = s.outputs := memRead_keeps s a (·.outputs) rfl

@[simp] theorem memRead_hostR (s : State) (a : Word) : (s.memRead a).2.hostR = s.hostR := memRead_keeps s a (·.hostR) rfl

@[simp] theorem memRead_platform (s : State) (a : Word) : (s.memRead a).2.platform = s.platform := memRead_keeps s a (·.platform) rfl

@[simp] theorem iramGet_memRead (s : State) (a : Word) (a' : Ptr) : (s.memRead a).2.iramGet a' = s.iramGet a' :=
  iramGet_congr s _ _ (memRead_iram s a)

@[simp] theorem implemented_memRead (s : State) (a : Word) (a' : Ptr) : (s.memRead a).2.implemented a' = s.implemented a' :=
  implemented_congr s _ _ (memRead_platform s a)

@[simp] theorem backing_memRead (s : State) (a : Word) (a' : Word) : (s.memRead a).2.backing a' = s.backing a' :=
  backing_congr s _ _ (memRead_platform s a)

@[simp] theorem storedByte_memRead (s : State) (a : Word) (a' : Word) : (s.memRead a).2.storedByte a' = s.storedByte a' :=
  storedByte_congr s _ _ (memRead_mem s a)

@[simp] theorem codeRead_iram (s : State) (a : Word) : (s.codeRead a).2.iram = s.iram := codeRead_keeps s a (·.iram) rfl

@[simp] theorem codeRead_p (s : State) (a : Word) : (s.codeRead a).2.p = s.p := codeRead_keeps s a (·.p) rfl

@[simp] theorem codeRead_q (s : State) (a : Word) : (s.codeRead a).2.q = s.q := codeRead_keeps s a (·.q) rfl

@[simp] theorem codeRead_r (s : State) (a : Word) : (s.codeRead a).2.r = s.r := codeRead_keeps s a (·.r) rfl

@[simp] theorem codeRead_pc (s : State) (a : Word) : (s.codeRead a).2.pc = s.pc := codeRead_keeps s a (·.pc) rfl

@[simp] theorem codeRead_dp (s : State) (a : Word) : (s.codeRead a).2.dp = s.dp := codeRead_keeps s a (·.dp) rfl

@[simp] theorem codeRead_c (s : State) (a : Word) : (s.codeRead a).2.c = s.c := codeRead_keeps s a (·.c) rfl

@[simp] theorem codeRead_z (s : State) (a : Word) : (s.codeRead a).2.z = s.z := codeRead_keeps s a (·.z) rfl

@[simp] theorem codeRead_d (s : State) (a : Word) : (s.codeRead a).2.d = s.d := codeRead_keeps s a (·.d) rfl

@[simp] theorem codeRead_tj (s : State) (a : Word) : (s.codeRead a).2.tj = s.tj := codeRead_keeps s a (·.tj) rfl

@[simp] theorem codeRead_outIA (s : State) (a : Word) : (s.codeRead a).2.outIA = s.outIA := codeRead_keeps s a (·.outIA) rfl

@[simp] theorem codeRead_outIB (s : State) (a : Word) : (s.codeRead a).2.outIB = s.outIB := codeRead_keeps s a (·.outIB) rfl

@[simp] theorem codeRead_outF0 (s : State) (a : Word) : (s.codeRead a).2.outF0 = s.outF0 := codeRead_keeps s a (·.outF0) rfl

@[simp] theorem codeRead_outC (s : State) (a : Word) : (s.codeRead a).2.outC = s.outC := codeRead_keeps s a (·.outC) rfl

@[simp] theorem codeRead_mem (s : State) (a : Word) : (s.codeRead a).2.mem = s.mem := codeRead_keeps s a (·.mem) rfl

@[simp] theorem codeRead_status (s : State) (a : Word) : (s.codeRead a).2.status = s.status := codeRead_keeps s a (·.status) rfl

@[simp] theorem codeRead_inIA (s : State) (a : Word) : (s.codeRead a).2.inIA = s.inIA := codeRead_keeps s a (·.inIA) rfl

@[simp] theorem codeRead_inIB (s : State) (a : Word) : (s.codeRead a).2.inIB = s.inIB := codeRead_keeps s a (·.inIB) rfl

@[simp] theorem codeRead_inTest (s : State) (a : Word) : (s.codeRead a).2.inTest = s.inTest := codeRead_keeps s a (·.inTest) rfl

@[simp] theorem codeRead_outputs (s : State) (a : Word) : (s.codeRead a).2.outputs = s.outputs := codeRead_keeps s a (·.outputs) rfl

@[simp] theorem codeRead_hostR (s : State) (a : Word) : (s.codeRead a).2.hostR = s.hostR := codeRead_keeps s a (·.hostR) rfl

@[simp] theorem codeRead_platform (s : State) (a : Word) : (s.codeRead a).2.platform = s.platform := codeRead_keeps s a (·.platform) rfl

@[simp] theorem iramGet_codeRead (s : State) (a : Word) (a' : Ptr) : (s.codeRead a).2.iramGet a' = s.iramGet a' :=
  iramGet_congr s _ _ (codeRead_iram s a)

@[simp] theorem implemented_codeRead (s : State) (a : Word) (a' : Ptr) : (s.codeRead a).2.implemented a' = s.implemented a' :=
  implemented_congr s _ _ (codeRead_platform s a)

@[simp] theorem backing_codeRead (s : State) (a : Word) (a' : Word) : (s.codeRead a).2.backing a' = s.backing a' :=
  backing_congr s _ _ (codeRead_platform s a)

@[simp] theorem storedByte_codeRead (s : State) (a : Word) (a' : Word) : (s.codeRead a).2.storedByte a' = s.storedByte a' :=
  storedByte_congr s _ _ (codeRead_mem s a)

@[simp] theorem memWrite_iram (s : State) (a : Word) (v : Byte) : (s.memWrite a v).iram = s.iram := memWrite_keeps s a v (·.iram) rfl (fun _ => rfl)

@[simp] theorem memWrite_p (s : State) (a : Word) (v : Byte) : (s.memWrite a v).p = s.p := memWrite_keeps s a v (·.p) rfl (fun _ => rfl)

@[simp] theorem memWrite_q (s : State) (a : Word) (v : Byte) : (s.memWrite a v).q = s.q := memWrite_keeps s a v (·.q) rfl (fun _ => rfl)

@[simp] theorem memWrite_r (s : State) (a : Word) (v : Byte) : (s.memWrite a v).r = s.r := memWrite_keeps s a v (·.r) rfl (fun _ => rfl)

@[simp] theorem memWrite_pc (s : State) (a : Word) (v : Byte) : (s.memWrite a v).pc = s.pc := memWrite_keeps s a v (·.pc) rfl (fun _ => rfl)

@[simp] theorem memWrite_dp (s : State) (a : Word) (v : Byte) : (s.memWrite a v).dp = s.dp := memWrite_keeps s a v (·.dp) rfl (fun _ => rfl)

@[simp] theorem memWrite_c (s : State) (a : Word) (v : Byte) : (s.memWrite a v).c = s.c := memWrite_keeps s a v (·.c) rfl (fun _ => rfl)

@[simp] theorem memWrite_z (s : State) (a : Word) (v : Byte) : (s.memWrite a v).z = s.z := memWrite_keeps s a v (·.z) rfl (fun _ => rfl)

@[simp] theorem memWrite_d (s : State) (a : Word) (v : Byte) : (s.memWrite a v).d = s.d := memWrite_keeps s a v (·.d) rfl (fun _ => rfl)

@[simp] theorem memWrite_tj (s : State) (a : Word) (v : Byte) : (s.memWrite a v).tj = s.tj := memWrite_keeps s a v (·.tj) rfl (fun _ => rfl)

@[simp] theorem memWrite_outIA (s : State) (a : Word) (v : Byte) : (s.memWrite a v).outIA = s.outIA := memWrite_keeps s a v (·.outIA) rfl (fun _ => rfl)

@[simp] theorem memWrite_outIB (s : State) (a : Word) (v : Byte) : (s.memWrite a v).outIB = s.outIB := memWrite_keeps s a v (·.outIB) rfl (fun _ => rfl)

@[simp] theorem memWrite_outF0 (s : State) (a : Word) (v : Byte) : (s.memWrite a v).outF0 = s.outF0 := memWrite_keeps s a v (·.outF0) rfl (fun _ => rfl)

@[simp] theorem memWrite_outC (s : State) (a : Word) (v : Byte) : (s.memWrite a v).outC = s.outC := memWrite_keeps s a v (·.outC) rfl (fun _ => rfl)

@[simp] theorem memWrite_status (s : State) (a : Word) (v : Byte) : (s.memWrite a v).status = s.status := memWrite_keeps s a v (·.status) rfl (fun _ => rfl)

@[simp] theorem memWrite_inIA (s : State) (a : Word) (v : Byte) : (s.memWrite a v).inIA = s.inIA := memWrite_keeps s a v (·.inIA) rfl (fun _ => rfl)

@[simp] theorem memWrite_inIB (s : State) (a : Word) (v : Byte) : (s.memWrite a v).inIB = s.inIB := memWrite_keeps s a v (·.inIB) rfl (fun _ => rfl)

@[simp] theorem memWrite_inTest (s : State) (a : Word) (v : Byte) : (s.memWrite a v).inTest = s.inTest := memWrite_keeps s a v (·.inTest) rfl (fun _ => rfl)

@[simp] theorem memWrite_hostR (s : State) (a : Word) (v : Byte) : (s.memWrite a v).hostR = s.hostR := memWrite_keeps s a v (·.hostR) rfl (fun _ => rfl)

@[simp] theorem memWrite_draws (s : State) (a : Word) (v : Byte) : (s.memWrite a v).draws = s.draws := memWrite_keeps s a v (·.draws) rfl (fun _ => rfl)

@[simp] theorem memWrite_platform (s : State) (a : Word) (v : Byte) : (s.memWrite a v).platform = s.platform := memWrite_keeps s a v (·.platform) rfl (fun _ => rfl)

@[simp] theorem iramGet_memWrite (s : State) (a : Word) (v : Byte) (a' : Ptr) : (s.memWrite a v).iramGet a' = s.iramGet a' :=
  iramGet_congr s _ _ (memWrite_iram s a v)

@[simp] theorem implemented_memWrite (s : State) (a : Word) (v : Byte) (a' : Ptr) : (s.memWrite a v).implemented a' = s.implemented a' :=
  implemented_congr s _ _ (memWrite_platform s a v)

@[simp] theorem backing_memWrite (s : State) (a : Word) (v : Byte) (a' : Word) : (s.memWrite a v).backing a' = s.backing a' :=
  backing_congr s _ _ (memWrite_platform s a v)

@[simp] theorem reg_memRead (s : State) (a : Word) (g : Reg) : (s.memRead a).2.reg g = s.reg g :=
  iramGet_memRead s a (regAddr g)

@[simp] theorem reg_codeRead (s : State) (a : Word) (g : Reg) : (s.codeRead a).2.reg g = s.reg g :=
  iramGet_codeRead s a (regAddr g)

@[simp] theorem reg_memWrite (s : State) (a : Word) (v : Byte) (g : Reg) : (s.memWrite a v).reg g = s.reg g :=
  iramGet_memWrite s a v (regAddr g)

/-- A data write keeps memory in its canonical form. -/
theorem memWrite_wf (s : State) (a : Word) (v : Byte) (h : s.mem.wf) : (s.memWrite a v).mem.wf := by
  rcases memWrite_cases s a v with ⟨_, e⟩ | ⟨_, e⟩ | ⟨_, _, e⟩ <;> rw [e]
  · exact write_wf s.mem a.toNat v a.isLt h
  · exact h
  · exact h

/-! ### Ports -/

/-- A sample of a port either takes the next supplied byte or draws one. -/
theorem portIn_cases (s : State) (p : InPort) :
    (∃ v rest, p = .ia ∧ s.inIA = v :: rest ∧ s.portIn p = (v, { s with inIA := rest })) ∨
    (∃ v rest, p = .ib ∧ s.inIB = v :: rest ∧ s.portIn p = (v, { s with inIB := rest })) ∨
    s.portIn p = s.drawByte := by
  cases p with
  | ia =>
    cases h : s.inIA with
    | nil => exact .inr (.inr (by simp only [State.portIn, h]))
    | cons v rest => exact .inl ⟨v, rest, rfl, rfl, by simp only [State.portIn, h]⟩
  | ib =>
    cases h : s.inIB with
    | nil => exact .inr (.inr (by simp only [State.portIn, h]))
    | cons v rest => exact .inr (.inl ⟨v, rest, rfl, rfl, by simp only [State.portIn, h]⟩)

/-- A sample of the TEST signals either takes the next supplied byte or draws one. -/
theorem sampleTest_cases (s : State) :
    (∃ v rest, s.inTest = v :: rest ∧ s.sampleTest = (v, { s with inTest := rest })) ∨
    s.sampleTest = s.drawByte := by
  cases h : s.inTest with
  | nil => exact .inr (by simp only [State.sampleTest, h])
  | cons v rest => exact .inl ⟨v, rest, rfl, by simp only [State.sampleTest, h]⟩

/-- What a draw and the taking of a supplied byte keep, a sample of a port keeps. -/
theorem portIn_keeps {β : Type} (s : State) (p : InPort) (view : State → β)
    (ia : ∀ l, view { s with inIA := l } = view s) (ib : ∀ l, view { s with inIB := l } = view s)
    (drawn : view s.drawByte.2 = view s) : view (s.portIn p).2 = view s := by
  rcases portIn_cases s p with ⟨_, _, _, _, h⟩ | ⟨_, _, _, _, h⟩ | h <;> rw [h]
  · exact ia _
  · exact ib _
  · exact drawn

/-- The same for a sample of the TEST signals. -/
theorem sampleTest_keeps {β : Type} (s : State) (view : State → β)
    (taken : ∀ l, view { s with inTest := l } = view s) (drawn : view s.drawByte.2 = view s) :
    view s.sampleTest.2 = view s := by
  rcases sampleTest_cases s with ⟨_, _, _, h⟩ | h <;> rw [h]
  · exact taken _
  · exact drawn

@[simp] theorem portOut_iram (s : State) (o : OutPort) (v : Byte) : (s.portOut o v).iram = s.iram := by
  cases o <;> rfl

@[simp] theorem portOut_p (s : State) (o : OutPort) (v : Byte) : (s.portOut o v).p = s.p := by
  cases o <;> rfl

@[simp] theorem portOut_q (s : State) (o : OutPort) (v : Byte) : (s.portOut o v).q = s.q := by
  cases o <;> rfl

@[simp] theorem portOut_r (s : State) (o : OutPort) (v : Byte) : (s.portOut o v).r = s.r := by
  cases o <;> rfl

@[simp] theorem portOut_pc (s : State) (o : OutPort) (v : Byte) : (s.portOut o v).pc = s.pc := by
  cases o <;> rfl

@[simp] theorem portOut_dp (s : State) (o : OutPort) (v : Byte) : (s.portOut o v).dp = s.dp := by
  cases o <;> rfl

@[simp] theorem portOut_c (s : State) (o : OutPort) (v : Byte) : (s.portOut o v).c = s.c := by
  cases o <;> rfl

@[simp] theorem portOut_z (s : State) (o : OutPort) (v : Byte) : (s.portOut o v).z = s.z := by
  cases o <;> rfl

@[simp] theorem portOut_d (s : State) (o : OutPort) (v : Byte) : (s.portOut o v).d = s.d := by
  cases o <;> rfl

@[simp] theorem portOut_tj (s : State) (o : OutPort) (v : Byte) : (s.portOut o v).tj = s.tj := by
  cases o <;> rfl

@[simp] theorem portOut_mem (s : State) (o : OutPort) (v : Byte) : (s.portOut o v).mem = s.mem := by
  cases o <;> rfl

@[simp] theorem portOut_status (s : State) (o : OutPort) (v : Byte) : (s.portOut o v).status = s.status := by
  cases o <;> rfl

@[simp] theorem portOut_inIA (s : State) (o : OutPort) (v : Byte) : (s.portOut o v).inIA = s.inIA := by
  cases o <;> rfl

@[simp] theorem portOut_inIB (s : State) (o : OutPort) (v : Byte) : (s.portOut o v).inIB = s.inIB := by
  cases o <;> rfl

@[simp] theorem portOut_inTest (s : State) (o : OutPort) (v : Byte) : (s.portOut o v).inTest = s.inTest := by
  cases o <;> rfl

@[simp] theorem portOut_hostR (s : State) (o : OutPort) (v : Byte) : (s.portOut o v).hostR = s.hostR := by
  cases o <;> rfl

@[simp] theorem portOut_draws (s : State) (o : OutPort) (v : Byte) : (s.portOut o v).draws = s.draws := by
  cases o <;> rfl

@[simp] theorem portOut_platform (s : State) (o : OutPort) (v : Byte) : (s.portOut o v).platform = s.platform := by
  cases o <;> rfl

@[simp] theorem portIn_iram (s : State) (i : InPort) : (s.portIn i).2.iram = s.iram := portIn_keeps s i (·.iram) (fun _ => rfl) (fun _ => rfl) rfl

@[simp] theorem portIn_p (s : State) (i : InPort) : (s.portIn i).2.p = s.p := portIn_keeps s i (·.p) (fun _ => rfl) (fun _ => rfl) rfl

@[simp] theorem portIn_q (s : State) (i : InPort) : (s.portIn i).2.q = s.q := portIn_keeps s i (·.q) (fun _ => rfl) (fun _ => rfl) rfl

@[simp] theorem portIn_r (s : State) (i : InPort) : (s.portIn i).2.r = s.r := portIn_keeps s i (·.r) (fun _ => rfl) (fun _ => rfl) rfl

@[simp] theorem portIn_pc (s : State) (i : InPort) : (s.portIn i).2.pc = s.pc := portIn_keeps s i (·.pc) (fun _ => rfl) (fun _ => rfl) rfl

@[simp] theorem portIn_dp (s : State) (i : InPort) : (s.portIn i).2.dp = s.dp := portIn_keeps s i (·.dp) (fun _ => rfl) (fun _ => rfl) rfl

@[simp] theorem portIn_c (s : State) (i : InPort) : (s.portIn i).2.c = s.c := portIn_keeps s i (·.c) (fun _ => rfl) (fun _ => rfl) rfl

@[simp] theorem portIn_z (s : State) (i : InPort) : (s.portIn i).2.z = s.z := portIn_keeps s i (·.z) (fun _ => rfl) (fun _ => rfl) rfl

@[simp] theorem portIn_d (s : State) (i : InPort) : (s.portIn i).2.d = s.d := portIn_keeps s i (·.d) (fun _ => rfl) (fun _ => rfl) rfl

@[simp] theorem portIn_tj (s : State) (i : InPort) : (s.portIn i).2.tj = s.tj := portIn_keeps s i (·.tj) (fun _ => rfl) (fun _ => rfl) rfl

@[simp] theorem portIn_outIA (s : State) (i : InPort) : (s.portIn i).2.outIA = s.outIA := portIn_keeps s i (·.outIA) (fun _ => rfl) (fun _ => rfl) rfl

@[simp] theorem portIn_outIB (s : State) (i : InPort) : (s.portIn i).2.outIB = s.outIB := portIn_keeps s i (·.outIB) (fun _ => rfl) (fun _ => rfl) rfl

@[simp] theorem portIn_outF0 (s : State) (i : InPort) : (s.portIn i).2.outF0 = s.outF0 := portIn_keeps s i (·.outF0) (fun _ => rfl) (fun _ => rfl) rfl

@[simp] theorem portIn_outC (s : State) (i : InPort) : (s.portIn i).2.outC = s.outC := portIn_keeps s i (·.outC) (fun _ => rfl) (fun _ => rfl) rfl

@[simp] theorem portIn_mem (s : State) (i : InPort) : (s.portIn i).2.mem = s.mem := portIn_keeps s i (·.mem) (fun _ => rfl) (fun _ => rfl) rfl

@[simp] theorem portIn_status (s : State) (i : InPort) : (s.portIn i).2.status = s.status := portIn_keeps s i (·.status) (fun _ => rfl) (fun _ => rfl) rfl

@[simp] theorem portIn_inTest (s : State) (i : InPort) : (s.portIn i).2.inTest = s.inTest := portIn_keeps s i (·.inTest) (fun _ => rfl) (fun _ => rfl) rfl

@[simp] theorem portIn_outputs (s : State) (i : InPort) : (s.portIn i).2.outputs = s.outputs := portIn_keeps s i (·.outputs) (fun _ => rfl) (fun _ => rfl) rfl

@[simp] theorem portIn_hostR (s : State) (i : InPort) : (s.portIn i).2.hostR = s.hostR := portIn_keeps s i (·.hostR) (fun _ => rfl) (fun _ => rfl) rfl

@[simp] theorem portIn_platform (s : State) (i : InPort) : (s.portIn i).2.platform = s.platform := portIn_keeps s i (·.platform) (fun _ => rfl) (fun _ => rfl) rfl

@[simp] theorem sampleTest_iram (s : State) : s.sampleTest.2.iram = s.iram := sampleTest_keeps s (·.iram) (fun _ => rfl) rfl

@[simp] theorem sampleTest_p (s : State) : s.sampleTest.2.p = s.p := sampleTest_keeps s (·.p) (fun _ => rfl) rfl

@[simp] theorem sampleTest_q (s : State) : s.sampleTest.2.q = s.q := sampleTest_keeps s (·.q) (fun _ => rfl) rfl

@[simp] theorem sampleTest_r (s : State) : s.sampleTest.2.r = s.r := sampleTest_keeps s (·.r) (fun _ => rfl) rfl

@[simp] theorem sampleTest_pc (s : State) : s.sampleTest.2.pc = s.pc := sampleTest_keeps s (·.pc) (fun _ => rfl) rfl

@[simp] theorem sampleTest_dp (s : State) : s.sampleTest.2.dp = s.dp := sampleTest_keeps s (·.dp) (fun _ => rfl) rfl

@[simp] theorem sampleTest_c (s : State) : s.sampleTest.2.c = s.c := sampleTest_keeps s (·.c) (fun _ => rfl) rfl

@[simp] theorem sampleTest_z (s : State) : s.sampleTest.2.z = s.z := sampleTest_keeps s (·.z) (fun _ => rfl) rfl

@[simp] theorem sampleTest_d (s : State) : s.sampleTest.2.d = s.d := sampleTest_keeps s (·.d) (fun _ => rfl) rfl

@[simp] theorem sampleTest_tj (s : State) : s.sampleTest.2.tj = s.tj := sampleTest_keeps s (·.tj) (fun _ => rfl) rfl

@[simp] theorem sampleTest_outIA (s : State) : s.sampleTest.2.outIA = s.outIA := sampleTest_keeps s (·.outIA) (fun _ => rfl) rfl

@[simp] theorem sampleTest_outIB (s : State) : s.sampleTest.2.outIB = s.outIB := sampleTest_keeps s (·.outIB) (fun _ => rfl) rfl

@[simp] theorem sampleTest_outF0 (s : State) : s.sampleTest.2.outF0 = s.outF0 := sampleTest_keeps s (·.outF0) (fun _ => rfl) rfl

@[simp] theorem sampleTest_outC (s : State) : s.sampleTest.2.outC = s.outC := sampleTest_keeps s (·.outC) (fun _ => rfl) rfl

@[simp] theorem sampleTest_mem (s : State) : s.sampleTest.2.mem = s.mem := sampleTest_keeps s (·.mem) (fun _ => rfl) rfl

@[simp] theorem sampleTest_status (s : State) : s.sampleTest.2.status = s.status := sampleTest_keeps s (·.status) (fun _ => rfl) rfl

@[simp] theorem sampleTest_inIA (s : State) : s.sampleTest.2.inIA = s.inIA := sampleTest_keeps s (·.inIA) (fun _ => rfl) rfl

@[simp] theorem sampleTest_inIB (s : State) : s.sampleTest.2.inIB = s.inIB := sampleTest_keeps s (·.inIB) (fun _ => rfl) rfl

@[simp] theorem sampleTest_outputs (s : State) : s.sampleTest.2.outputs = s.outputs := sampleTest_keeps s (·.outputs) (fun _ => rfl) rfl

@[simp] theorem sampleTest_hostR (s : State) : s.sampleTest.2.hostR = s.hostR := sampleTest_keeps s (·.hostR) (fun _ => rfl) rfl

@[simp] theorem sampleTest_platform (s : State) : s.sampleTest.2.platform = s.platform := sampleTest_keeps s (·.platform) (fun _ => rfl) rfl

@[simp] theorem testIn_iram (s : State) : s.testIn.2.iram = s.iram := sampleTest_iram s

@[simp] theorem testIn_p (s : State) : s.testIn.2.p = s.p := sampleTest_p s

@[simp] theorem testIn_q (s : State) : s.testIn.2.q = s.q := sampleTest_q s

@[simp] theorem testIn_r (s : State) : s.testIn.2.r = s.r := sampleTest_r s

@[simp] theorem testIn_pc (s : State) : s.testIn.2.pc = s.pc := sampleTest_pc s

@[simp] theorem testIn_dp (s : State) : s.testIn.2.dp = s.dp := sampleTest_dp s

@[simp] theorem testIn_c (s : State) : s.testIn.2.c = s.c := sampleTest_c s

@[simp] theorem testIn_z (s : State) : s.testIn.2.z = s.z := sampleTest_z s

@[simp] theorem testIn_d (s : State) : s.testIn.2.d = s.d := sampleTest_d s

@[simp] theorem testIn_tj (s : State) : s.testIn.2.tj = s.tj := sampleTest_tj s

@[simp] theorem testIn_outIA (s : State) : s.testIn.2.outIA = s.outIA := sampleTest_outIA s

@[simp] theorem testIn_outIB (s : State) : s.testIn.2.outIB = s.outIB := sampleTest_outIB s

@[simp] theorem testIn_outF0 (s : State) : s.testIn.2.outF0 = s.outF0 := sampleTest_outF0 s

@[simp] theorem testIn_outC (s : State) : s.testIn.2.outC = s.outC := sampleTest_outC s

@[simp] theorem testIn_mem (s : State) : s.testIn.2.mem = s.mem := sampleTest_mem s

@[simp] theorem testIn_status (s : State) : s.testIn.2.status = s.status := sampleTest_status s

@[simp] theorem testIn_inIA (s : State) : s.testIn.2.inIA = s.inIA := sampleTest_inIA s

@[simp] theorem testIn_inIB (s : State) : s.testIn.2.inIB = s.inIB := sampleTest_inIB s

@[simp] theorem testIn_outputs (s : State) : s.testIn.2.outputs = s.outputs := sampleTest_outputs s

@[simp] theorem testIn_hostR (s : State) : s.testIn.2.hostR = s.hostR := sampleTest_hostR s

@[simp] theorem testIn_platform (s : State) : s.testIn.2.platform = s.platform := sampleTest_platform s

end Sys2Proof.Machine
end

