-- ==== Sys2Proof/Laws/Loops.lean ====
section
/-! SUPPORT. The inductions over the loops of the machine, each done once: the block loop of 43_block_bcd.md rule R260,
the table search of 44_control_flow.md rule R324, and the pointer steps. -/

namespace Sys2Proof.Machine

/-- What every pass of a loop body keeps, the loop keeps. -/
theorem repeatBody_keeps {σ : Type} (body : σ → Except Fault σ) (inv : σ → Prop)
    (pass : ∀ x y, body x = .ok y → inv x → inv y) (n : Nat) (x y : σ) (run : repeatBody body n x = .ok y)
    (start : inv x) : inv y := by
  induction n generalizing x with
  | zero => exact pass x y run start
  | succ n ih =>
    obtain ⟨u, first, rest⟩ := (bind_eq_ok _ _ _).mp run
    exact ih u rest (pass x u first start)

/-- A loop of `n + 1` passes moves a property indexed by the number of passes done from `k` to `k + n + 1`. -/
theorem repeatBody_counts {σ : Type} (body : σ → Except Fault σ) (inv : Nat → σ → Prop)
    (pass : ∀ k x y, body x = .ok y → inv k x → inv (k + 1) y) (n k : Nat) (x y : σ)
    (run : repeatBody body n x = .ok y) (start : inv k x) : inv (k + n + 1) y := by
  induction n generalizing x k with
  | zero => exact pass k x y run start
  | succ n ih =>
    obtain ⟨u, first, rest⟩ := (bind_eq_ok _ _ _).mp run
    have := ih (k + 1) u rest (pass k x u first start)
    rwa [show k + (n + 1) + 1 = k + 1 + n + 1 by omega]

/-- A loop whose every pass completes, under a property indexed by the number of passes done, completes. -/
theorem repeatBody_completes {σ : Type} (body : σ → Except Fault σ) (inv : Nat → σ → Prop) (n k : Nat) (x : σ)
    (pass : ∀ j, k ≤ j → j ≤ k + n → ∀ x, inv j x → ∃ y, body x = .ok y ∧ inv (j + 1) y) (start : inv k x) :
    ∃ y, repeatBody body n x = .ok y ∧ inv (k + n + 1) y := by
  induction n generalizing x k with
  | zero => exact pass k (Nat.le_refl _) (Nat.le_refl _) x start
  | succ n ih =>
    obtain ⟨u, first, here⟩ := pass k (Nat.le_refl _) (by omega) x start
    obtain ⟨y, rest, done⟩ := ih (k + 1) u (fun j low high => pass j (by omega) (by omega)) here
    refine ⟨y, (bind_eq_ok _ _ _).mpr ⟨u, first, rest⟩, ?_⟩
    rwa [show k + (n + 1) + 1 = k + 1 + n + 1 by omega]

/-- A fault of a loop is a fault of one of its passes. -/
theorem repeatBody_error {σ : Type} (body : σ → Except Fault σ) (n : Nat) (x : σ) (f : Fault)
    (run : repeatBody body n x = .error f) : ∃ y, body y = .error f := by
  induction n generalizing x with
  | zero => exact ⟨x, run⟩
  | succ n ih =>
    rcases (bind_eq_error _ _ _).mp run with first | ⟨u, _, rest⟩
    · exact ⟨x, first⟩
    · exact ih u rest

/-- What a draw keeps, the table search keeps: it only reads program space. -/
theorem searchTable_keeps {β : Type} (view : State → β) (drawn : ∀ s : State, view s.drawByte.2 = view s) (v : Byte)
    (n : Nat) (a : Word) (s : State) : view (searchTable v n a s).2 = view s := by
  have read (s : State) (a : Word) : view (s.codeRead a).2 = view s := codeRead_keeps s a view (drawn s)
  induction n generalizing a s with
  | zero => simp only [searchTable, read]
  | succ n ih =>
    simp only [searchTable]
    split
    · simp only [read]
    · rw [ih, read]

/-- Each BCD byte leaves the state but for the draws. -/
theorem bcdOp_state (s : State) (op : Byte → Byte → Bool → Byte × Bool) (x y : Byte) (cin : Bool) :
    (s.bcdOp op x y cin).2 = s ∨ (s.bcdOp op x y cin).2 = { s with draws := s.draws + 2 } := by
  unfold State.bcdOp
  split
  · exact .inl rfl
  · exact .inr rfl

/-- On decimal operands a BCD byte is the decimal operation and leaves the state. -/
theorem bcdOp_decimal (s : State) (op : Byte → Byte → Bool → Byte × Bool) (x y : Byte) (cin : Bool)
    (hx : isBcd x = true) (hy : isBcd y = true) : s.bcdOp op x y cin = (op x y cin, s) := by
  simp [State.bcdOp, hx, hy]

/-- INCP and DECP draw three values: C, Z and Q. -/
theorem drawFlagsAndQ_eq (s : State) :
    s.drawFlagsAndQ = { s with c := Config.anyFlag s.draws, z := Config.anyFlag (s.draws + 1),
                               q := Config.anyPtr (s.draws + 2), draws := s.draws + 3 } := rfl

end Sys2Proof.Machine
end

