-- ==== Sys2Proof/Laws/PerInstr.lean ====
section
/-! SUPPORT. Facts about every instruction as syntax, made one instruction at a time. -/

namespace Sys2Proof.Laws.EncodeLength

/-- The encoding has one byte more than its first byte asks operands for (30_encoding.md rules R90 and R99). -/
def Statement (i : Instr) : Prop :=
  (encode i).length = 1 + operandCount ((encode i).getD 0 0)

/-- The statement from the encoding written out. -/
theorem of_bytes (i : Instr) (b0 : Byte) (rest : List Byte) (bytes : encode i = b0 :: rest)
    (count : operandCount b0 = rest.length) : Statement i := by
  show (encode i).length = 1 + operandCount ((encode i).getD 0 0)
  rw [bytes, List.getD_cons_zero, count, List.length_cons, Nat.add_comm]

theorem lii (n : Byte) : Statement (.lii n) := of_bytes _ 0x00 [_] rfl rfl

theorem lij (n : Byte) : Statement (.lij n) := of_bytes _ 0x01 [_] rfl rfl

theorem lia (n : Byte) : Statement (.lia n) := of_bytes _ 0x02 [_] rfl rfl

theorem lib (n : Byte) : Statement (.lib n) := of_bytes _ 0x03 [_] rfl rfl

theorem lidp (nm : Word) : Statement (.lidp nm) := of_bytes _ 0x10 [_, _] rfl rfl

theorem lidl (n : Byte) : Statement (.lidl n) := of_bytes _ 0x11 [_] rfl rfl

theorem lip (n : Byte) : Statement (.lip n) := of_bytes _ 0x12 [_] rfl rfl

theorem liq (n : Byte) : Statement (.liq n) := of_bytes _ 0x13 [_] rfl rfl

/-- The 64 first bytes of LP. -/
theorem lp (l : BitVec 6) : Statement (.lp l) :=
  have all : ∀ l : BitVec 6, operandCount (0b10#2 ++ l) = 0 := by decide +kernel
  of_bytes _ _ [] rfl (all l)

theorem ldp : Statement .ldp := of_bytes _ 0x20 [] rfl rfl

theorem ldq : Statement .ldq := of_bytes _ 0x21 [] rfl rfl

theorem ldr : Statement .ldr := of_bytes _ 0x22 [] rfl rfl

theorem ra : Statement .ra := of_bytes _ 0x23 [] rfl rfl

theorem stp : Statement .stp := of_bytes _ 0x30 [] rfl rfl

theorem stq : Statement .stq := of_bytes _ 0x31 [] rfl rfl

theorem str : Statement .str := of_bytes _ 0x32 [] rfl rfl

theorem ldm : Statement .ldm := of_bytes _ 0x59 [] rfl rfl

theorem ldd : Statement .ldd := of_bytes _ 0x57 [] rfl rfl

theorem std : Statement .std := of_bytes _ 0x52 [] rfl rfl

theorem mvdm : Statement .mvdm := of_bytes _ 0x53 [] rfl rfl

theorem mvmd : Statement .mvmd := of_bytes _ 0x55 [] rfl rfl

theorem exab : Statement .exab := of_bytes _ 0xDA [] rfl rfl

theorem exam : Statement .exam := of_bytes _ 0xDB [] rfl rfl

theorem swp : Statement .swp := of_bytes _ 0x58 [] rfl rfl

theorem read : Statement .read := of_bytes _ 0x56 [] rfl rfl

theorem readm : Statement .readm := of_bytes _ 0x54 [] rfl rfl

theorem push : Statement .push := of_bytes _ 0x34 [] rfl rfl

theorem pop : Statement .pop := of_bytes _ 0x5B [] rfl rfl

theorem leave : Statement .leave := of_bytes _ 0xD8 [] rfl rfl

theorem adm : Statement .adm := of_bytes _ 0x44 [] rfl rfl

theorem sbm : Statement .sbm := of_bytes _ 0x45 [] rfl rfl

theorem adcm : Statement .adcm := of_bytes _ 0xC4 [] rfl rfl

theorem sbcm : Statement .sbcm := of_bytes _ 0xC5 [] rfl rfl

theorem adia (n : Byte) : Statement (.adia n) := of_bytes _ 0x74 [_] rfl rfl

theorem sbia (n : Byte) : Statement (.sbia n) := of_bytes _ 0x75 [_] rfl rfl

theorem adim (n : Byte) : Statement (.adim n) := of_bytes _ 0x70 [_] rfl rfl

theorem sbim (n : Byte) : Statement (.sbim n) := of_bytes _ 0x71 [_] rfl rfl

theorem adb : Statement .adb := of_bytes _ 0x14 [] rfl rfl

theorem sbb : Statement .sbb := of_bytes _ 0x15 [] rfl rfl

theorem anma : Statement .anma := of_bytes _ 0x46 [] rfl rfl

theorem orma : Statement .orma := of_bytes _ 0x47 [] rfl rfl

theorem tsma : Statement .tsma := of_bytes _ 0xC6 [] rfl rfl

theorem cpma : Statement .cpma := of_bytes _ 0xC7 [] rfl rfl

theorem anim (n : Byte) : Statement (.anim n) := of_bytes _ 0x60 [_] rfl rfl

theorem orim (n : Byte) : Statement (.orim n) := of_bytes _ 0x61 [_] rfl rfl

theorem tsim (n : Byte) : Statement (.tsim n) := of_bytes _ 0x62 [_] rfl rfl

theorem cpim (n : Byte) : Statement (.cpim n) := of_bytes _ 0x63 [_] rfl rfl

theorem ania (n : Byte) : Statement (.ania n) := of_bytes _ 0x64 [_] rfl rfl

theorem oria (n : Byte) : Statement (.oria n) := of_bytes _ 0x65 [_] rfl rfl

theorem tsia (n : Byte) : Statement (.tsia n) := of_bytes _ 0x66 [_] rfl rfl

theorem cpia (n : Byte) : Statement (.cpia n) := of_bytes _ 0x67 [_] rfl rfl

theorem anid (n : Byte) : Statement (.anid n) := of_bytes _ 0xD4 [_] rfl rfl

theorem orid (n : Byte) : Statement (.orid n) := of_bytes _ 0xD5 [_] rfl rfl

theorem tsid (n : Byte) : Statement (.tsid n) := of_bytes _ 0xD6 [_] rfl rfl

theorem sl : Statement .sl := of_bytes _ 0x5A [] rfl rfl

theorem sr : Statement .sr := of_bytes _ 0xD2 [] rfl rfl

theorem sc : Statement .sc := of_bytes _ 0xD0 [] rfl rfl

theorem rc : Statement .rc := of_bytes _ 0xD1 [] rfl rfl

theorem inci : Statement .inci := of_bytes _ 0x40 [] rfl rfl

theorem deci : Statement .deci := of_bytes _ 0x41 [] rfl rfl

theorem incj : Statement .incj := of_bytes _ 0xC0 [] rfl rfl

theorem decj : Statement .decj := of_bytes _ 0xC1 [] rfl rfl

theorem inca : Statement .inca := of_bytes _ 0x42 [] rfl rfl

theorem deca : Statement .deca := of_bytes _ 0x43 [] rfl rfl

theorem incb : Statement .incb := of_bytes _ 0xC2 [] rfl rfl

theorem decb : Statement .decb := of_bytes _ 0xC3 [] rfl rfl

theorem inck : Statement .inck := of_bytes _ 0x48 [] rfl rfl

theorem deck : Statement .deck := of_bytes _ 0x49 [] rfl rfl

theorem incl : Statement .incl := of_bytes _ 0xC8 [] rfl rfl

theorem decl : Statement .decl := of_bytes _ 0xC9 [] rfl rfl

theorem incm : Statement .incm := of_bytes _ 0x4A [] rfl rfl

theorem decm : Statement .decm := of_bytes _ 0x4B [] rfl rfl

theorem incn : Statement .incn := of_bytes _ 0xCA [] rfl rfl

theorem decn : Statement .decn := of_bytes _ 0xCB [] rfl rfl

theorem incp : Statement .incp := of_bytes _ 0x50 [] rfl rfl

theorem decp : Statement .decp := of_bytes _ 0x51 [] rfl rfl

theorem ix : Statement .ix := of_bytes _ 0x04 [] rfl rfl

theorem dx : Statement .dx := of_bytes _ 0x05 [] rfl rfl

theorem iy : Statement .iy := of_bytes _ 0x06 [] rfl rfl

theorem dy : Statement .dy := of_bytes _ 0x07 [] rfl rfl

theorem ixl : Statement .ixl := of_bytes _ 0x24 [] rfl rfl

theorem dxl : Statement .dxl := of_bytes _ 0x25 [] rfl rfl

theorem iys : Statement .iys := of_bytes _ 0x26 [] rfl rfl

theorem dys : Statement .dys := of_bytes _ 0x27 [] rfl rfl

theorem mvw : Statement .mvw := of_bytes _ 0x08 [] rfl rfl

theorem mvb : Statement .mvb := of_bytes _ 0x0A [] rfl rfl

theorem exw : Statement .exw := of_bytes _ 0x09 [] rfl rfl

theorem exb : Statement .exb := of_bytes _ 0x0B [] rfl rfl

theorem mvwd : Statement .mvwd := of_bytes _ 0x18 [] rfl rfl

theorem mvbd : Statement .mvbd := of_bytes _ 0x1A [] rfl rfl

theorem exwd : Statement .exwd := of_bytes _ 0x19 [] rfl rfl

theorem exbd : Statement .exbd := of_bytes _ 0x1B [] rfl rfl

theorem film : Statement .film := of_bytes _ 0x1E [] rfl rfl

theorem fild : Statement .fild := of_bytes _ 0x1F [] rfl rfl

theorem data : Statement .data := of_bytes _ 0x35 [] rfl rfl

theorem adn : Statement .adn := of_bytes _ 0x0C [] rfl rfl

theorem sbn : Statement .sbn := of_bytes _ 0x0D [] rfl rfl

theorem adw : Statement .adw := of_bytes _ 0x0E [] rfl rfl

theorem sbw : Statement .sbw := of_bytes _ 0x0F [] rfl rfl

theorem srw : Statement .srw := of_bytes _ 0x1C [] rfl rfl

theorem slw : Statement .slw := of_bytes _ 0x1D [] rfl rfl

theorem jrnzp (n : Byte) : Statement (.jrnzp n) := of_bytes _ 0x28 [_] rfl rfl

theorem jrnzm (n : Byte) : Statement (.jrnzm n) := of_bytes _ 0x29 [_] rfl rfl

theorem jrncp (n : Byte) : Statement (.jrncp n) := of_bytes _ 0x2A [_] rfl rfl

theorem jrncm (n : Byte) : Statement (.jrncm n) := of_bytes _ 0x2B [_] rfl rfl

theorem jrp (n : Byte) : Statement (.jrp n) := of_bytes _ 0x2C [_] rfl rfl

theorem jrm (n : Byte) : Statement (.jrm n) := of_bytes _ 0x2D [_] rfl rfl

theorem jrzp (n : Byte) : Statement (.jrzp n) := of_bytes _ 0x38 [_] rfl rfl

theorem jrzm (n : Byte) : Statement (.jrzm n) := of_bytes _ 0x39 [_] rfl rfl

theorem jrcp (n : Byte) : Statement (.jrcp n) := of_bytes _ 0x3A [_] rfl rfl

theorem jrcm (n : Byte) : Statement (.jrcm n) := of_bytes _ 0x3B [_] rfl rfl

theorem jp (nm : Word) : Statement (.jp nm) := of_bytes _ 0x79 [_, _] rfl rfl

theorem jpnz (nm : Word) : Statement (.jpnz nm) := of_bytes _ 0x7C [_, _] rfl rfl

theorem jpnc (nm : Word) : Statement (.jpnc nm) := of_bytes _ 0x7D [_, _] rfl rfl

theorem jpz (nm : Word) : Statement (.jpz nm) := of_bytes _ 0x7E [_, _] rfl rfl

theorem jpc (nm : Word) : Statement (.jpc nm) := of_bytes _ 0x7F [_, _] rfl rfl

theorem loop (n : Byte) : Statement (.loop n) := of_bytes _ 0x2F [_] rfl rfl

theorem call (nm : Word) : Statement (.call nm) := of_bytes _ 0x78 [_, _] rfl rfl

/-- The 32 first bytes of CAL. -/
theorem cal (ln : BitVec 13) : Statement (.cal ln) :=
  have all : ∀ h : BitVec 5, operandCount (0b111#3 ++ h) = 1 := by decide +kernel
  of_bytes _ _ [_] rfl (all _)

theorem rtn : Statement .rtn := of_bytes _ 0x37 [] rfl rfl

theorem ptj (l : Byte) (nm : Word) : Statement (.ptj l nm) := of_bytes _ 0x7A [_, _, _] rfl rfl

theorem dtj : Statement .dtj := of_bytes _ 0x69 [] rfl rfl

theorem ina : Statement .ina := of_bytes _ 0x4C [] rfl rfl

theorem inb : Statement .inb := of_bytes _ 0xCC [] rfl rfl

theorem outa : Statement .outa := of_bytes _ 0x5D [] rfl rfl

theorem outb : Statement .outb := of_bytes _ 0xDD [] rfl rfl

theorem outf : Statement .outf := of_bytes _ 0x5F [] rfl rfl

theorem outc : Statement .outc := of_bytes _ 0xDF [] rfl rfl

theorem test (n : Byte) : Statement (.test n) := of_bytes _ 0x6B [_] rfl rfl

theorem nopw : Statement .nopw := of_bytes _ 0x4D [] rfl rfl

theorem nopt : Statement .nopt := of_bytes _ 0xCE [] rfl rfl

theorem wait (n : Byte) : Statement (.wait n) := of_bytes _ 0x4E [_] rfl rfl

theorem waiti : Statement .waiti := of_bytes _ 0x4F [] rfl rfl

theorem writ : Statement .writ := of_bytes _ 0xD3 [] rfl rfl

theorem undefined16 : Statement .undefined16 := of_bytes _ 0x16 [] rfl rfl

theorem undefined17 : Statement .undefined17 := of_bytes _ 0x17 [] rfl rfl

theorem undefined2E : Statement .undefined2E := of_bytes _ 0x2E [] rfl rfl

theorem undefined33 : Statement .undefined33 := of_bytes _ 0x33 [] rfl rfl

theorem undefined36 : Statement .undefined36 := of_bytes _ 0x36 [] rfl rfl

theorem undefined3C : Statement .undefined3C := of_bytes _ 0x3C [] rfl rfl

theorem undefined3D : Statement .undefined3D := of_bytes _ 0x3D [] rfl rfl

theorem undefined3E : Statement .undefined3E := of_bytes _ 0x3E [] rfl rfl

theorem undefined3F : Statement .undefined3F := of_bytes _ 0x3F [] rfl rfl

theorem undefined5C : Statement .undefined5C := of_bytes _ 0x5C [] rfl rfl

theorem undefined5E : Statement .undefined5E := of_bytes _ 0x5E [] rfl rfl

theorem undefined68 : Statement .undefined68 := of_bytes _ 0x68 [] rfl rfl

theorem undefined6A : Statement .undefined6A := of_bytes _ 0x6A [] rfl rfl

theorem undefined6C : Statement .undefined6C := of_bytes _ 0x6C [] rfl rfl

theorem undefined6D : Statement .undefined6D := of_bytes _ 0x6D [] rfl rfl

theorem undefined6E : Statement .undefined6E := of_bytes _ 0x6E [] rfl rfl

theorem undefined6F : Statement .undefined6F := of_bytes _ 0x6F [] rfl rfl

theorem undefined72 : Statement .undefined72 := of_bytes _ 0x72 [] rfl rfl

theorem undefined73 : Statement .undefined73 := of_bytes _ 0x73 [] rfl rfl

theorem undefined76 : Statement .undefined76 := of_bytes _ 0x76 [] rfl rfl

theorem undefined77 : Statement .undefined77 := of_bytes _ 0x77 [] rfl rfl

theorem undefined7B : Statement .undefined7B := of_bytes _ 0x7B [] rfl rfl

theorem undefinedCD : Statement .undefinedCD := of_bytes _ 0xCD [] rfl rfl

theorem undefinedCF : Statement .undefinedCF := of_bytes _ 0xCF [] rfl rfl

theorem undefinedD7 : Statement .undefinedD7 := of_bytes _ 0xD7 [] rfl rfl

theorem undefinedD9 : Statement .undefinedD9 := of_bytes _ 0xD9 [] rfl rfl

theorem undefinedDC : Statement .undefinedDC := of_bytes _ 0xDC [] rfl rfl

theorem undefinedDE : Statement .undefinedDE := of_bytes _ 0xDE [] rfl rfl

end Sys2Proof.Laws.EncodeLength
end

