-- ==== Sys2Proof/Tests/Slice0.lean ====
section
/-! SUPPORT. Tests of the model on small states, expected values from the spec: its encodings (30_encoding.md rules
R90 to R102) and its vectors (95_test_vectors.md to 97_test_vectors_derived.md, whose numbers W and V stand beside
the theorems). After them, for each statement of Obligations.lean that has hypotheses, states and operands that meet
them all together, at the bounds of each clause. -/

namespace Sys2Proof.Tests

open Sys2Proof Sys2Proof.Machine

/-! ### States -/

/-- Platform T of 95_test_vectors.md at the start of a run at &6000, some internal-RAM bytes and some bytes of memory
given. -/
def board (cells : List (Ptr × Byte)) (bytes : List (Word × Byte) := []) : State :=
  let s := cells.foldl (fun s c => s.iramSet c.1 c.2) { State.reset with pc := 0x6000, r := 0x50 }
  bytes.foldl (fun s b => s.storeByte b.1 b.2) s

/-- The same with all of internal RAM present. -/
def wide (cells : List (Ptr × Byte)) (bytes : List (Word × Byte) := []) : State :=
  { board cells bytes with platform := { Platform.atReset with iramTop := .at7F } }

/-- A platform with a region of each kind: RAM at &2000, ROM at &4000, a device at &3E00 that wins over the RAM. -/
def mixed : State :=
  { board [] with
    platform := { Platform.atReset with
      memmap := [{ base := 0x3E00, size := 1, kind := .device }, { base := 0x2000, size := 0x2000, kind := .ram },
        { base := 0x4000, size := 0x1000, kind := .rom }] } }

/-- What is seen of the state after an instruction, `none` where it stops. -/
def after {α : Type} (i : Instr) (s : State) (see : State → α) : Option α :=
  match exec i s with
  | .next t => some (see t)
  | .fault _ => none
  | .refused _ => none

/-- Why an instruction stops, `none` where it goes on. -/
def stop (i : Instr) (s : State) : Option Fault :=
  match exec i s with
  | .next _ => none
  | .fault f => some f
  | .refused _ => none

/-! ### WellFormed refuses ill-formed terms -/

theorem test_wellFormed_refuses_undescribed :
    [Instr.writ, .undefined16, .undefined2E, .undefined7B, .undefinedDE].all (fun i => !i.wellFormed) = true := by
  decide

theorem test_wellFormed_refuses_region_below_the_bus :
    Region.wellFormed { base := 0x1FFF, size := 1, kind := .ram } = false := by decide

theorem test_wellFormed_refuses_empty_region :
    Region.wellFormed { base := 0x2000, size := 0, kind := .rom } = false := by decide

theorem test_wellFormed_refuses_region_past_the_top :
    Region.wellFormed { base := 0xFFFF, size := 2, kind := .device } = false := by decide

theorem test_wellFormed_refuses_platform :
    Platform.wellFormed { Platform.atReset with memmap := [{ base := 0x1000, size := 1, kind := .ram }] } = false := by
  decide

theorem test_wf_refuses_unsorted_and_repeated_and_outside :
    ¬ Memory.wf [(2, 0), (1, 0)] ∧ ¬ Memory.wf [(1, 0), (1, 0)] ∧ ¬ Memory.wf [(0x10000, 0)] := by decide

theorem test_wellFormed_accepts :
    Platform.atReset.wellFormed = true ∧ Memory.wf [(0, 1), (0xFFFF, 0)] ∧
    basicAreas.all (fun g => g.models.all fun m => (platformOf m g [] .at5F false).wellFormed) = true := by decide

/-! ### Words written out from 30_encoding.md rule R100 -/

/-- All of the words decode to what stands beside them. -/
def decodesAll (words : List (List Byte × Instr)) : Bool :=
  words.all fun w => match decode w.1 with
    | .ok r => decide (r.1 = w.2) && r.2.isEmpty
    | .error _ => false

theorem test_decode_loads : decodesAll
    [([0x00, 0xFF], .lii 0xFF), ([0x01, 0xFE], .lij 0xFE), ([0x02, 0x08], .lia 0x08), ([0x03, 0x50], .lib 0x50),
     ([0x10, 0x12, 0x34], .lidp 0x1234), ([0x11, 0x34], .lidl 0x34), ([0x12, 0xDE], .lip 0xDE),
     ([0x13, 0x5E], .liq 0x5E), ([0x80], .lp 0), ([0x9C], .lp 0x1C), ([0xBF], .lp 0x3F), ([0x20], .ldp),
     ([0x21], .ldq), ([0x22], .ldr), ([0x23], .ra), ([0x30], .stp), ([0x31], .stq), ([0x32], .str), ([0x59], .ldm),
     ([0x57], .ldd), ([0x52], .std), ([0x53], .mvdm), ([0x55], .mvmd), ([0xDA], .exab), ([0xDB], .exam),
     ([0x58], .swp), ([0x56], .read), ([0x54], .readm), ([0x34], .push), ([0x5B], .pop), ([0xD8], .leave)]
    = true := by decide

theorem test_decode_arithmetic : decodesAll
    [([0x44], .adm), ([0x45], .sbm), ([0xC4], .adcm), ([0xC5], .sbcm), ([0x74, 0x12], .adia 0x12),
     ([0x75, 0x13], .sbia 0x13), ([0x70, 0x0F], .adim 0x0F), ([0x71, 0x0E], .sbim 0x0E), ([0x14], .adb),
     ([0x15], .sbb), ([0x46], .anma), ([0x47], .orma), ([0xC6], .tsma), ([0xC7], .cpma), ([0x60, 0x63], .anim 0x63),
     ([0x61, 0x64], .orim 0x64), ([0x62, 0x65], .tsim 0x65), ([0x63, 0x30], .cpim 0x30), ([0x64, 0x12], .ania 0x12),
     ([0x65, 0x11], .oria 0x11), ([0x66, 0x80], .tsia 0x80), ([0x67, 0x10], .cpia 0x10), ([0xD4, 0x63], .anid 0x63),
     ([0xD5, 0x01], .orid 0x01), ([0xD6, 0xF0], .tsid 0xF0), ([0x5A], .sl), ([0xD2], .sr), ([0xD0], .sc),
     ([0xD1], .rc)] = true := by decide

theorem test_decode_counts : decodesAll
    [([0x40], .inci), ([0x41], .deci), ([0xC0], .incj), ([0xC1], .decj), ([0x42], .inca), ([0x43], .deca),
     ([0xC2], .incb), ([0xC3], .decb), ([0x48], .inck), ([0x49], .deck), ([0xC8], .incl), ([0xC9], .decl),
     ([0x4A], .incm), ([0x4B], .decm), ([0xCA], .incn), ([0xCB], .decn), ([0x50], .incp), ([0x51], .decp),
     ([0x04], .ix), ([0x05], .dx), ([0x06], .iy), ([0x07], .dy), ([0x24], .ixl), ([0x25], .dxl), ([0x26], .iys),
     ([0x27], .dys)] = true := by decide

theorem test_decode_blocks : decodesAll
    [([0x08], .mvw), ([0x09], .exw), ([0x0A], .mvb), ([0x0B], .exb), ([0x18], .mvwd), ([0x19], .exwd),
     ([0x1A], .mvbd), ([0x1B], .exbd), ([0x1E], .film), ([0x1F], .fild), ([0x35], .data), ([0x0C], .adn),
     ([0x0D], .sbn), ([0x0E], .adw), ([0x0F], .sbw), ([0x1C], .srw), ([0x1D], .slw)] = true := by decide

theorem test_decode_control : decodesAll
    [([0x28, 0x04], .jrnzp 4), ([0x29, 0x08], .jrnzm 8), ([0x2A, 0x05], .jrncp 5), ([0x2B, 0x06], .jrncm 6),
     ([0x2C, 0x03], .jrp 3), ([0x2D, 0xFF], .jrm 0xFF), ([0x38, 0x07], .jrzp 7), ([0x39, 0x09], .jrzm 9),
     ([0x3A, 0x7F], .jrcp 0x7F), ([0x3B, 0x0B], .jrcm 0x0B), ([0x79, 0x60, 0x07], .jp 0x6007),
     ([0x7C, 0x60, 0x0A], .jpnz 0x600A), ([0x7D, 0x60, 0x0B], .jpnc 0x600B), ([0x7E, 0x60, 0x0C], .jpz 0x600C),
     ([0x7F, 0x60, 0x0D], .jpc 0x600D), ([0x2F, 0x02], .loop 2), ([0x78, 0x56, 0xAF], .call 0x56AF),
     ([0xE0, 0x00], .cal 0), ([0xE5, 0xA2], .cal 0x05A2), ([0xFF, 0xFF], .cal 0x1FFF), ([0x37], .rtn),
     ([0x7A, 0x03, 0x60, 0x12], .ptj 3 0x6012), ([0x69], .dtj)] = true := by decide

theorem test_decode_ports : decodesAll
    [([0x4C], .ina), ([0xCC], .inb), ([0x5D], .outa), ([0xDD], .outb), ([0x5F], .outf), ([0xDF], .outc),
     ([0x6B, 0x08], .test 8), ([0x4D], .nopw), ([0xCE], .nopt), ([0x4E, 0x0F], .wait 0x0F), ([0x4F], .waiti)]
    = true := by decide

theorem test_decode_undescribed : decodesAll
    [([0xD3], .writ), ([0x16], .undefined16), ([0x17], .undefined17), ([0x2E], .undefined2E), ([0x33], .undefined33),
     ([0x36], .undefined36), ([0x3C], .undefined3C), ([0x3D], .undefined3D), ([0x3E], .undefined3E),
     ([0x3F], .undefined3F), ([0x5C], .undefined5C), ([0x5E], .undefined5E), ([0x68], .undefined68),
     ([0x6A], .undefined6A), ([0x6C], .undefined6C), ([0x6D], .undefined6D), ([0x6E], .undefined6E),
     ([0x6F], .undefined6F), ([0x72], .undefined72), ([0x73], .undefined73), ([0x76], .undefined76),
     ([0x77], .undefined77), ([0x7B], .undefined7B), ([0xCD], .undefinedCD), ([0xCF], .undefinedCF),
     ([0xD7], .undefinedD7), ([0xD9], .undefinedD9), ([0xDC], .undefinedDC), ([0xDE], .undefinedDE)] = true := by
  decide

/-- A list too short for its first byte is refused by name. -/
theorem test_decode_refuses_short_lists :
    decode [] = .error .noByte ∧ decode [0x10, 0x12] = .error (.missingOperand 0x10) ∧
    decode [0x7A, 0, 0] = .error (.missingOperand 0x7A) ∧ decode [0xE5] = .error (.missingOperand 0xE5) :=
  ⟨rfl, rfl, rfl, rfl⟩

/-- Table words: the first byte in bits 7..0, the second in bits 15..8; the bits from `nbits` on are 0. -/
theorem test_decodeTableWord :
    decodeTableWord 8 0x59 = some .ldm ∧ decodeTableWord 16 0xA2E5 = some (.cal 0x05A2) ∧
    decodeTableWord 24 0x341210 = some (.lidp 0x1234) ∧ decodeTableWord 8 0x3412FF10 = some (.lidp 0) ∧
    decodeTableWord 32 0x1260037A = some (.ptj 3 0x6012) := by decide

/-- What withFetchWord places, the next step runs: at &0000 in the internal ROM after reset, and at &9000 where
nothing answers. -/
theorem test_withFetchWord :
    step (State.reset.withFetchWord 16 0xA2E5) = exec (.cal 0x05A2) (State.reset.withFetchWord 16 0xA2E5) ∧
    step ({ State.reset with pc := 0x9000 }.withFetchWord 16 0x1202) =
      exec (.lia 0x12) ({ State.reset with pc := 0x9000 }.withFetchWord 16 0x1202) := ⟨rfl, rfl⟩

/-! ### Loads, stores, moves, the stack -/

theorem test_lii : after (.lii 0xFF) (board []) (fun t => (t.reg .i, t.pc)) = some (0xFF, 0x6002) := by decide -- W64
theorem test_lij : after (.lij 0xFF) (board []) (fun t => (t.reg .j, t.pc)) = some (0xFF, 0x6002) := by decide -- W65
theorem test_lia : after (.lia 0xFF) (board []) (fun t => (t.reg .a, t.pc)) = some (0xFF, 0x6002) := by decide -- W62
theorem test_lib : after (.lib 0xFF) (board []) (fun t => (t.reg .b, t.pc)) = some (0xFF, 0x6002) := by decide -- W63
theorem test_lidp : after (.lidp 0x60FF) (board []) (fun t => (t.dp, t.pc)) = some (0x60FF, 0x6003) := by
  decide -- W67
theorem test_lidl : after (.lidl 0x00) { board [] with dp := 0x61FF } (fun t => (t.dp, t.pc)) =
    some (0x6100, 0x6002) := by decide -- V6
theorem test_lip : after (.lip 0xDE) (board []) (fun t => (t.p, t.pc)) = some (0x5E, 0x6002) := by decide -- V1
theorem test_liq : after (.liq 0xFF) (board []) (fun t => (t.q, t.pc)) = some (0x7F, 0x6002) := by decide -- V2
theorem test_lp : after (.lp 0x3F) (board []) (fun t => (t.p, t.pc)) = some (0x3F, 0x6001) := by decide -- V3
theorem test_ldp : after .ldp { board [] with p := 9 } (fun t => (t.reg .a, t.p)) = some (9, 9) := by decide -- W59
theorem test_ldq : after .ldq { board [(2, 0x80)] with q := 0x7F } (fun t => (t.reg .a, t.q)) = some (0x7F, 0x7F) := by
  decide -- V2
theorem test_ldr : after .ldr (board []) (fun t => (t.reg .a, t.r)) = some (0x50, 0x50) := by decide -- V5
theorem test_ra : after .ra (board [(2, 3)]) (fun t => t.reg .a) = some 0 := by decide -- W81
theorem test_stp : after .stp (board [(2, 0xFF)]) (fun t => (t.p, t.reg .a)) = some (0x7F, 0xFF) := by decide -- V4
theorem test_stq : after .stq (board [(2, 8)]) (fun t => (t.q, t.reg .a)) = some (8, 8) := by decide -- W75
theorem test_str : after .str { board [(2, 0x50)] with r := 0x4F } (fun t => t.r) = some 0x50 := by decide -- W76
theorem test_ldm : after .ldm { board [(2, 0xFF), (8, 0)] with p := 8 } (fun t => t.reg .a) = some 0 := by
  decide -- W58
theorem test_ldm_above_iramTop : stop .ldm { board [] with p := 0x60 } = some (.unimplementedIram 0x60) := by
  decide -- V20
theorem test_ldd : after .ldd { board [] [(0x6002, 2)] with dp := 0x6002 } (fun t => t.reg .a) = some 2 := by
  decide -- W57
theorem test_ldd_rom_window : after .ldd { board [] [(0x1234, 0x55)] with dp := 0x1234 } (fun t => t.reg .a) =
    some 0x12 := by decide -- V8
theorem test_std : after .std { board [(2, 0xF0)] with dp := 0x6002 } (fun t => t.storedByte 0x6002) = some 0xF0 := by
  decide -- W73
theorem test_std_rom_window : after .std { board [(2, 0x55)] with dp := 0x1234 } (fun t => t.mem) = some [] := by
  decide -- V10
theorem test_mvdm : after .mvdm { board [(8, 0xFF)] with p := 8, dp := 0x6020 } (fun t => t.storedByte 0x6020) =
    some 0xFF := by decide -- W71
theorem test_mvmd : after .mvmd { board [] with p := 8, dp := 0x0500 } (fun t => t.reg .k) = some 5 := by
  decide -- V17
theorem test_exab : after .exab (board [(2, 6), (3, 0xF0)]) (fun t => (t.reg .a, t.reg .b)) = some (0xF0, 6) := by
  decide -- W55
theorem test_exam : after .exam { board [(2, 6), (8, 0x9E)] with p := 8 } (fun t => (t.reg .a, t.reg .k)) =
    some (0x9E, 6) := by decide -- W56
theorem test_exam_with_a : after .exam { board [(2, 0x77)] with p := 2 } (fun t => t.reg .a) = some 0x77 := by
  decide -- V13
theorem test_swp : after .swp (board [(2, 0xA5)]) (fun t => t.reg .a) = some 0x5A := by decide -- V14
theorem test_read : after .read (board [] [(0x6001, 3)]) (fun t => (t.reg .a, t.pc)) = some (3, 0x6001) := by
  decide -- W82
theorem test_readm : after .readm { board [] [(0x6001, 0x37)] with p := 8 } (fun t => (t.reg .k, t.pc)) =
    some (0x37, 0x6001) := by decide -- V16
theorem test_push : after .push (board [(2, 3)]) (fun t => (t.r, t.iramGet 0x4F)) = some (0x4F, 3) := by decide -- W78
theorem test_push_wraps : stop .push { board [] with r := 0 } = some (.unimplementedIram 0x7F) ∧
    after .push { wide [] with r := 0 } (fun t => t.r) = some 0x7F := by decide -- V18, V19
theorem test_pop : after .pop (board [(0x50, 0xFE)]) (fun t => (t.reg .a, t.r)) = some (0xFE, 0x51) := by decide -- V21
theorem test_leave : after .leave { board [(0x4F, 3), (2, 5)] with r := 0x4F } (fun t => (t.iramGet 0x4F, t.r)) =
    some (0, 0x4F) := by decide -- W79

/-! ### Arithmetic and logic -/

theorem test_adm : after .adm { board [(8, 0xF0), (2, 0x20)] with p := 8 } (fun t => (t.reg .k, t.c, t.z)) =
    some (0x10, true, false) := by decide -- V22
theorem test_adm_zero : after .adm { board [(8, 1), (2, 1)] with p := 8, c := true } (fun t => (t.reg .k, t.c, t.z)) =
    some (2, false, false) := by decide -- V24
theorem test_sbm : after .sbm { board [(8, 0x10), (2, 0x20)] with p := 8 } (fun t => (t.reg .k, t.c, t.z)) =
    some (0xF0, true, false) := by decide -- V27
theorem test_sbm_equal : after .sbm { board [(8, 0x20), (2, 0x20)] with p := 8 } (fun t => (t.reg .k, t.c, t.z)) =
    some (0, false, true) := by decide -- V28
theorem test_adcm : after .adcm { board [(8, 0xFF)] with p := 8, c := true } (fun t => (t.reg .k, t.c, t.z)) =
    some (0, true, true) := by decide -- V25
theorem test_sbcm : after .sbcm { board [] with p := 8, c := true } (fun t => (t.reg .k, t.c, t.z)) =
    some (0xFF, true, false) := by decide -- V29
theorem test_sbcm_zero : after .sbcm { board [(8, 0x30), (2, 0x2F)] with p := 8, c := true }
    (fun t => (t.reg .k, t.c, t.z)) = some (0, false, true) := by decide -- V30
theorem test_adia : after (.adia 0x12) (board [(2, 0x2F)]) (fun t => (t.reg .a, t.c, t.z)) =
    some (0x41, false, false) := by decide -- W3
theorem test_adia_wraps : after (.adia 1) (board [(2, 0xFF)]) (fun t => (t.reg .a, t.c, t.z)) =
    some (0, true, true) := by decide -- V32
theorem test_sbia : after (.sbia 1) (board []) (fun t => (t.reg .a, t.c, t.z)) = some (0xFF, true, false) := by
  decide -- V33
theorem test_adim : after (.adim 1) { board [(0x10, 0x7F)] with p := 0x10 } (fun t => (t.iramGet 0x10, t.c, t.z)) =
    some (0x80, false, false) := by decide -- V34
theorem test_sbim : after (.sbim 1) { board [(0x10, 1)] with p := 0x10 } (fun t => (t.iramGet 0x10, t.c, t.z)) =
    some (0, false, true) := by decide -- V35
theorem test_adb : after .adb { board [(8, 0x30), (9, 0x21), (3, 0x10), (2, 0x40)] with p := 8 }
    (fun t => (t.reg .k, t.reg .l, t.p, t.c, t.z)) = some (0x70, 0x31, 9, false, false) := by decide -- W1
theorem test_adb_on_ba : after .adb { board [(3, 0x12), (2, 0x34)] with p := 2 } (fun t => (t.reg .a, t.reg .b, t.p)) =
    some (0x68, 0x24, 3) := by decide -- V41
theorem test_sbb : after .sbb { board [(8, 0x30), (9, 0x21), (3, 0x10), (2, 0x40)] with p := 8 }
    (fun t => (t.reg .k, t.reg .l, t.p, t.c)) = some (0xF0, 0x10, 9, false) := by decide -- W6
theorem test_sbb_low_byte_borrows : after .sbb { board [(9, 1), (2, 1)] with p := 8 }
    (fun t => (t.reg .k, t.reg .l, t.c, t.z)) = some (0xFF, 0, false, false) := by decide -- V40
theorem test_anma : after .anma { board [(0xA, 0xF0), (2, 0x0F)] with p := 0xA, c := true }
    (fun t => (t.reg .m, t.c, t.z)) = some (0, true, true) := by decide -- V42
theorem test_orma : after .orma { board [(0xA, 0x15), (2, 0x63)] with p := 0xA } (fun t => (t.reg .m, t.z)) =
    some (0x77, false) := by decide -- W18
theorem test_tsma : after .tsma { board [(0xA, 0x0F), (2, 0xF0)] with p := 0xA } (fun t => (t.reg .m, t.reg .a, t.z)) =
    some (0x0F, 0xF0, true) := by decide -- W22
theorem test_cpma : after .cpma { board [(9, 2), (2, 0x30)] with p := 9 } (fun t => (t.reg .l, t.c, t.z)) =
    some (2, true, false) := by decide -- the table of 95_test_vectors.md B.2
theorem test_anim : after (.anim 0x63) { board [(0xA, 0x15)] with p := 0xA } (fun t => (t.reg .m, t.z)) =
    some (1, false) := by decide -- W13
theorem test_orim : after (.orim 0x63) { board [(0xA, 0x15)] with p := 0xA } (fun t => (t.reg .m, t.z)) =
    some (0x77, false) := by decide -- W17
theorem test_tsim : after (.tsim 0xF0) { board [(0xA, 0x0F)] with p := 0xA } (fun t => (t.reg .m, t.z)) =
    some (0x0F, true) := by decide -- W21
theorem test_cpim : after (.cpim 0x30) { board [(9, 0x31)] with p := 9 } (fun t => (t.c, t.z)) =
    some (false, false) := by decide -- the table of 95_test_vectors.md B.2
theorem test_ania : after (.ania 0x12) (board [(2, 0x2F)]) (fun t => (t.reg .a, t.z)) = some (2, false) := by
  decide -- W11
theorem test_oria : after (.oria 0x12) (board [(2, 0x2F)]) (fun t => (t.reg .a, t.z)) = some (0x3F, false) := by
  decide -- W15
theorem test_tsia : after (.tsia 0x80) { board [(2, 0x81)] with c := true } (fun t => (t.reg .a, t.c, t.z)) =
    some (0x81, true, false) := by decide -- V48
theorem test_cpia : after (.cpia 0x10) (board [(2, 0x0F)]) (fun t => (t.c, t.z)) = some (true, false) ∧
    after (.cpia 0x10) (board [(2, 0x10)]) (fun t => (t.c, t.z)) = some (false, true) := by decide -- V44, V45
theorem test_anid : after (.anid 0x63) { board [] [(0x6050, 0x15)] with dp := 0x6050 }
    (fun t => (t.storedByte 0x6050, t.z)) = some (1, false) := by decide -- W12
theorem test_anid_rom_window : after (.anid 1) { board [] with dp := 0x1200 } (fun t => (t.mem, t.z)) =
    some ([], true) := by decide -- V50
theorem test_orid : after (.orid 0x63) { board [] [(0x6050, 0x15)] with dp := 0x6050 }
    (fun t => (t.storedByte 0x6050, t.z)) = some (0x77, false) := by decide -- W16
theorem test_tsid : after (.tsid 0xF0) { board [] [(0x6050, 0x0F)] with dp := 0x6050 }
    (fun t => (t.storedByte 0x6050, t.z)) = some (0x0F, true) := by decide -- W20
theorem test_sl : after .sl (board [(2, 0x80)]) (fun t => (t.reg .a, t.c, t.z)) = some (0, true, true) := by
  decide -- V52
theorem test_sl_carry_in : after .sl { board [(2, 0x80)] with c := true } (fun t => (t.reg .a, t.c, t.z)) =
    some (1, true, false) := by decide -- V53
theorem test_sr : after .sr { board [(2, 1)] with z := true } (fun t => (t.reg .a, t.c, t.z)) =
    some (0, true, true) := by decide -- V54
theorem test_sr_carry_in : after .sr { board [(2, 0xD0)] with c := true } (fun t => (t.reg .a, t.c, t.z)) =
    some (0xE8, false, false) := by decide -- W24
theorem test_sc : after .sc (board []) (fun t => (t.c, t.z)) = some (true, true) := by decide -- V57
theorem test_rc : after .rc { board [] with c := true } (fun t => (t.c, t.z)) = some (false, true) := by decide -- W25

/-! ### Increments, decrements, pointer steps -/

theorem test_inci : after .inci (board [(0, 3)]) (fun t => (t.reg .i, t.q, t.z)) = some (4, 0, false) := by
  decide -- W40
theorem test_deci : after .deci (board []) (fun t => (t.reg .i, t.c, t.q)) = some (0xFF, true, 0) := by decide -- V61
theorem test_incj : after .incj (board [(1, 3)]) (fun t => (t.reg .j, t.q)) = some (4, 1) := by decide -- W41
theorem test_decj : after .decj (board [(1, 3)]) (fun t => (t.reg .j, t.q)) = some (2, 1) := by decide -- W32
theorem test_inca : after .inca (board [(2, 0xFF)]) (fun t => (t.reg .a, t.c, t.z, t.q)) =
    some (0, true, true, 2) := by decide -- V58
theorem test_deca : after .deca (board [(2, 1)]) (fun t => (t.reg .a, t.c, t.z, t.q)) =
    some (0, false, true, 2) := by decide -- V60
theorem test_incb : after .incb (board [(3, 3)]) (fun t => (t.reg .b, t.q)) = some (4, 3) := by decide -- W39
theorem test_decb : after .decb (board [(3, 3)]) (fun t => (t.reg .b, t.q)) = some (2, 3) := by decide -- W30
theorem test_inck : after .inck { board [(8, 0x7F)] with p := 0x20 } (fun t => (t.reg .k, t.p, t.q)) =
    some (0x80, 0x20, 8) := by decide -- V62
theorem test_deck : after .deck (board [(8, 3)]) (fun t => (t.reg .k, t.q)) = some (2, 8) := by decide -- W33
theorem test_incl : after .incl (board [(9, 3)]) (fun t => (t.reg .l, t.q)) = some (4, 9) := by decide -- W43
theorem test_decl : after .decl (board [(9, 3)]) (fun t => (t.reg .l, t.q)) = some (2, 9) := by decide -- W34
theorem test_incm : after .incm (board [(0xA, 3)]) (fun t => (t.reg .m, t.q)) = some (4, 0xA) := by decide -- W44
theorem test_decm : after .decm (board [(0xA, 3)]) (fun t => (t.reg .m, t.q)) = some (2, 0xA) := by decide -- W35
theorem test_incn : after .incn (board [(0xB, 3)]) (fun t => (t.reg .n, t.q)) = some (4, 0xB) := by decide -- W45
theorem test_decn : after .decn (board [(0xB, 3)]) (fun t => (t.reg .n, t.q)) = some (2, 0xB) := by decide -- W36
theorem test_incp : after .incp { board [] with p := 0x7F } (fun t => t.p) = some 0 := by decide -- V63
theorem test_decp : after .decp { board [] with p := 0 } (fun t => t.p) = some 0x7F := by decide -- V64
theorem test_ix : after .ix (board [(4, 0xFF), (5, 0x26)]) (fun t => (t.x, t.dp, t.q)) =
    some (0x2700, 0x2700, 5) := by decide -- V67
theorem test_dx : after .dx (board []) (fun t => (t.x, t.dp, t.q)) = some (0xFFFF, 0xFFFF, 5) := by decide -- V66
theorem test_iy : after .iy (board [(6, 0x20), (7, 0x27)]) (fun t => (t.y, t.dp, t.q)) =
    some (0x2721, 0x2721, 7) := by decide -- W53
theorem test_dy : after .dy (board [(6, 0), (7, 0x27)]) (fun t => (t.y, t.dp, t.q)) =
    some (0x26FF, 0x26FF, 7) := by decide -- V68
theorem test_ixl : after .ixl { board [(4, 0x20), (5, 0x27)] [(0x2721, 0)] with c := true, z := true }
    (fun t => (t.reg .a, t.x, t.dp, t.c, t.z)) = some (0, 0x2721, 0x2721, true, true) := by decide -- V72
theorem test_ixl_rom_window : after .ixl (board [(4, 0xFF)]) (fun t => (t.x, t.reg .a)) = some (0x0100, 1) := by
  decide -- V69
theorem test_dxl : after .dxl (board [(4, 0x20), (5, 0x27)] [(0x271F, 0xC3)]) (fun t => (t.reg .a, t.x, t.q)) =
    some (0xC3, 0x271F, 5) := by decide -- W48
theorem test_iys : after .iys (board [(6, 0xFF), (7, 0x1F), (2, 0xAA)]) (fun t => (t.y, t.storedByte 0x2000)) =
    some (0x2000, 0xAA) := by decide -- V70
theorem test_iys_rom_window : after .iys (board [(6, 0xFE), (7, 0x1F), (2, 0xAA)]) (fun t => (t.y, t.mem)) =
    some (0x1FFF, []) := by decide -- V71
theorem test_dys : after .dys (board [(6, 0x20), (7, 0x27), (2, 0xFF)]) (fun t => (t.y, t.q, t.storedByte 0x271F)) =
    some (0x271F, 7, 0xFF) := by decide -- W50

/-! ### Blocks, BCD strings, digit shifts -/

theorem test_mvw : after .mvw { board [(2, 6), (3, 0x20), (0, 1)] with p := 4, q := 2 }
    (fun t => (t.x, t.p, t.q, t.reg .i, t.d)) = some (0x2006, 6, 4, 1, 0xFF) := by decide -- W84
theorem test_mvw_smears : after .mvw { board [(0x10, 0xAA), (0, 2)] with p := 0x11, q := 0x10 }
    (fun t => (t.iramGet 0x11, t.iramGet 0x12, t.iramGet 0x13, t.iramGet 0x14)) = some (0xAA, 0xAA, 0xAA, 0) := by
  decide -- V74
theorem test_mvb : after .mvb { board [(0, 0x55), (1, 0), (2, 0x77)] with p := 8, q := 2 }
    (fun t => (t.reg .k, t.reg .i, t.p, t.q)) = some (0x77, 0x55, 9, 3) := by decide -- V77
theorem test_exw : after .exw { board [(2, 6), (3, 0x20), (4, 0x11), (5, 0x22), (0, 1)] with p := 4, q := 2 }
    (fun t => (t.x, t.reg .a, t.reg .b, t.p, t.q)) = some (0x2006, 0x11, 0x22, 6, 4) := by decide -- W86
theorem test_exb : after .exb { board [(2, 6), (3, 0x20), (4, 0x11), (5, 0x22), (1, 1)] with p := 4, q := 2 }
    (fun t => (t.x, t.reg .a, t.reg .b, t.p, t.q)) = some (0x2006, 0x11, 0x22, 6, 4) := by decide -- W87
theorem test_mvwd : after .mvwd { board [(0, 3)] [(0x2000, 0xC0), (0x2001, 0xC1)] with p := 0x10, dp := 0x1FFE }
    (fun t => (t.iramGet 0x11, t.iramGet 0x12, t.iramGet 0x13, t.dp, t.p)) = some (0x1F, 0xC0, 0xC1, 0x2002, 0x14) := by
  decide -- V82
theorem test_mvbd : after .mvbd { board [(1, 2)] [(0x6100, 0xD0), (0x6101, 0xD1), (0x6102, 0xD2)] with
    p := 0x20, dp := 0x6100 } (fun t => (t.iramGet 0x20, t.iramGet 0x22, t.dp, t.p)) =
    some (0xD0, 0xD2, 0x6103, 0x23) := by decide -- V84
theorem test_exwd : after .exwd { board [(2, 6), (3, 0x20), (0, 1)] [(0x6020, 0xA1), (0x6021, 0xB2)] with
    p := 2, dp := 0x6020 } (fun t => (t.storedByte 0x6020, t.storedByte 0x6021, t.reg .a, t.reg .b, t.p, t.dp)) =
    some (6, 0x20, 0xA1, 0xB2, 4, 0x6022) := by decide -- W90
theorem test_exbd : after .exbd { board [(2, 6), (3, 0x20), (1, 1)] [(0x6020, 0xA1), (0x6021, 0xB2)] with
    p := 2, q := 0x33, dp := 0x6020 } (fun t => (t.storedByte 0x6021, t.reg .a, t.reg .b, t.p, t.dp, t.q)) =
    some (0x20, 0xA1, 0xB2, 4, 0x6022, 0x33) := by decide -- W91
theorem test_film : after .film { board [(2, 0xEE), (0, 3)] with p := 0 }
    (fun t => (t.reg .i, t.reg .b, t.reg .xl, t.p, t.d)) = some (0xEE, 0xEE, 0, 4, 0xFF) := by decide -- V79
theorem test_film_runs_out_of_iram : stop .film { board [(0, 0xFF)] with p := 0x10 } =
    some (.unimplementedIram 0x60) := by decide -- V78
theorem test_fild : after .fild { board [(2, 0x5A), (0, 1)] with dp := 0x7FFF } (fun t => (t.mem, t.dp)) =
    some ([(0x7FFF, 0x5A)], 0x8001) := by decide -- V81
theorem test_data : after .data { board [(0, 1), (3, 0x1F), (2, 0xFF)] [(0x1FFF, 0xAB), (0x2000, 0xCD)] with p := 0x20 }
    (fun t => (t.iramGet 0x20, t.iramGet 0x21, t.ba, t.p)) = some (0xAB, 0xCD, 0x2001, 0x22) := by decide -- V87
theorem test_data_over_ba : after .data { board [(0, 1), (3, 0x61), (2, 0)] [(0x6100, 0x10), (0x6111, 0x20)] with
    p := 2 } (fun t => (t.reg .a, t.reg .b, t.p)) = some (0x12, 0x20, 4) := by decide -- V86
theorem test_adn : after .adn { board [(8, 0x10), (9, 0x99), (0xA, 0x99), (0xB, 0x99), (0, 3), (2, 0x14)] with
    p := 0xB } (fun t => (t.reg .k, t.reg .l, t.reg .m, t.reg .n, t.p, t.c)) =
    some (0x11, 0, 0, 0x13, 7, false) := by decide -- W95
theorem test_adn_carry_out : after .adn { board [(8, 0x99), (9, 0x99), (0, 1), (2, 1)] with p := 9 }
    (fun t => (t.reg .k, t.reg .l, t.p, t.c, t.z)) = some (0, 0, 7, true, true) := by decide -- V88
theorem test_sbn : after .sbn { board [(8, 0x10), (9, 0x99), (0xA, 0x99), (0xB, 0x99), (0, 3), (2, 0x14)] with
    p := 0xB } (fun t => (t.reg .k, t.reg .l, t.reg .m, t.reg .n, t.p, t.c)) =
    some (0x10, 0x99, 0x99, 0x85, 7, false) := by decide -- W96
theorem test_sbn_borrow_out : after .sbn { board [(0, 1), (2, 1)] with p := 9 }
    (fun t => (t.reg .k, t.reg .l, t.c, t.z)) = some (0x99, 0x99, true, false) := by decide -- V90
theorem test_adw : after .adw { board [(8, 0x10), (9, 0x99), (0xA, 0x99), (0xB, 0x99), (0, 1)] with p := 0xB, q := 9 }
    (fun t => (t.reg .m, t.reg .n, t.p, t.q, t.c)) = some (0x10, 0x98, 9, 7, true) := by decide -- W97
theorem test_adw_q_extra : after .adw { board [(8, 0x50), (9, 0x50)] with
    p := 9, q := 8, platform := { Platform.atReset with bcdwQExtra := true } }
    (fun t => (t.reg .l, t.p, t.q, t.c, t.z)) = some (0, 8, 6, true, true) := by decide -- V96
theorem test_sbw : after .sbw { board [(8, 0x10), (9, 0x99), (0xA, 0x99), (0xB, 0x99), (0, 1)] with p := 0xB, q := 9 }
    (fun t => (t.reg .m, t.reg .n, t.p, t.q, t.c)) = some (0x89, 0, 9, 7, false) := by decide -- W98
theorem test_sbw_borrow_out : after .sbw { board [(9, 2), (0xB, 1), (0, 1)] with p := 0xB, q := 9 }
    (fun t => (t.reg .m, t.reg .n, t.c, t.z)) = some (0x99, 0x99, true, false) := by decide -- V98
theorem test_srw : after .srw { board [(8, 0x12), (9, 0x34), (0xA, 0x56), (0xB, 0x78), (0, 3)] with p := 8 }
    (fun t => (t.reg .k, t.reg .l, t.reg .m, t.reg .n, t.p)) = some (1, 0x23, 0x45, 0x67, 0xC) := by decide -- W100
theorem test_slw : after .slw { board [(8, 0x12), (9, 0x34), (0xA, 0x56), (0xB, 0x78), (0, 3)] with p := 0xB }
    (fun t => (t.reg .k, t.reg .l, t.reg .m, t.reg .n, t.p)) = some (0x23, 0x45, 0x67, 0x80, 7) := by decide -- W99

/-! ### Control flow -/

theorem test_jrnzp : after (.jrnzp 4) { board [] with pc := 0x6004 } (fun t => t.pc) = some 0x6009 := by decide -- W123
theorem test_jrnzm : after (.jrnzm 8) { board [] with pc := 0x6007, z := true } (fun t => t.pc) = some 0x6009 := by
  decide -- W120
theorem test_jrncp : after (.jrncp 4) { board [] with pc := 0x6004 } (fun t => t.pc) = some 0x6009 := by decide -- W119
theorem test_jrncm : after (.jrncm 8) { board [] with pc := 0x6007 } (fun t => t.pc) = some 0x6000 := by decide -- W117
theorem test_jrp : after (.jrp 0xFF) (board []) (fun t => t.pc) = some 0x6100 := by decide -- V107
theorem test_jrm_wraps : after (.jrm 2) { board [] with pc := 0 } (fun t => t.pc) = some 0xFFFF := by decide -- V106
theorem test_jrzp : after (.jrzp 4) { board [] with pc := 0x6004, z := true } (fun t => t.pc) = some 0x6009 := by
  decide -- W127
theorem test_jrzm : after (.jrzm 8) { board [] with pc := 0x6007, z := true } (fun t => t.pc) = some 0x6000 := by
  decide -- W125
theorem test_jrcp : after (.jrcp 0x7F) { board [] with pc := 0x6001 } (fun t => t.pc) = some 0x6003 := by decide -- V109
theorem test_jrcm : after (.jrcm 8) { board [] with pc := 0x6007, c := true } (fun t => t.pc) = some 0x6000 := by
  decide -- W111
theorem test_jp : after (.jp 0x0010) (board []) (fun t => t.pc) = some 0x0010 := by decide -- V112
theorem test_jpnz : after (.jpnz 0x600A) { board [] with z := true } (fun t => t.pc) = some 0x6003 := by decide -- V111
theorem test_jpnc : after (.jpnc 0x600A) { board [] with pc := 0x6004 } (fun t => t.pc) = some 0x600A := by
  decide -- W105
theorem test_jpz : after (.jpz 0x600A) { board [] with pc := 0x6004 } (fun t => t.pc) = some 0x6007 := by decide -- W109
theorem test_jpc : after (.jpc 0x600A) { board [] with pc := 0x6004, c := true } (fun t => t.pc) = some 0x600A := by
  decide -- W102
theorem test_loop : after (.loop 2) { board [(0x4F, 1)] with r := 0x4F, pc := 0x6006 }
    (fun t => (t.iramGet 0x4F, t.c, t.z, t.r, t.pc)) = some (0, false, true, 0x4F, 0x6005) := by decide -- V114
theorem test_loop_ends : after (.loop 2) { board [] with r := 0x4F, pc := 0x6006 }
    (fun t => (t.iramGet 0x4F, t.c, t.z, t.r, t.pc)) = some (0xFF, true, false, 0x50, 0x6008) := by decide -- W129, V113
theorem test_call : after (.call 0x6004) (board []) (fun t => (t.iramGet 0x4E, t.iramGet 0x4F, t.r, t.pc)) =
    some (3, 0x60, 0x4E, 0x6004) := by decide -- V116
theorem test_cal : after (.cal 0x1FFF) (board []) (fun t => (t.iramGet 0x4E, t.iramGet 0x4F, t.r, t.pc)) =
    some (2, 0x60, 0x4E, 0x1FFF) := by decide -- V118
theorem test_rtn : after .rtn { board [(0x4E, 7), (0x4F, 0x60)] with r := 0x4E } (fun t => (t.pc, t.r, t.status)) =
    some (0x6007, 0x50, .running) := by decide -- V119
theorem test_rtn_to_the_host : after .rtn ((board []).hostEntry 0x6000 0xFFFE) (fun t => (t.pc, t.r, t.status)) =
    some (0xFFFE, 0x52, .returned) := by decide -- 95_test_vectors.md Part A
theorem test_ptj : after (.ptj 3 0x1234) (board []) (fun t => (t.iramGet 0x4E, t.iramGet 0x4F, t.r, t.tj, t.pc)) =
    some (0x34, 0x12, 0x4E, some 3, 0x6004) := by decide -- V124
/-- The table of W132: entries 1, 2 and 3, then the default, DTJ at &6006. -/
def tableBoard (a : Byte) : State :=
  { board [(2, a)] [(0x6007, 1), (0x6008, 0x60), (0x6009, 0x13), (0x600A, 2), (0x600B, 0x60), (0x600C, 0x16),
      (0x600D, 3), (0x600E, 0x60), (0x600F, 0x19), (0x6010, 0x60), (0x6011, 0x1C)] with
    pc := 0x6006, tj := some 3 }
theorem test_dtj : after .dtj (tableBoard 1) (fun t => (t.pc, t.tj)) = some (0x6013, some 3) ∧
    after .dtj (tableBoard 9) (fun t => t.pc) = some 0x601C := by decide -- W132, W135
theorem test_dtj_unprepared : stop .dtj { board [] with pc := 0x6002 } = some (.tableJumpUnprepared 0x6002) := by
  decide -- V123

/-! ### Ports, TEST, waits, undescribed first bytes -/

theorem test_ina : after .ina { board [] with inIA := [0x80], z := true, c := true }
    (fun t => (t.reg .a, t.z, t.c, t.inIA)) = some (0x80, false, true, []) := by decide -- V131
theorem test_inb : after .inb { board [(0x5D, 9)] with inIB := [0, 0x3F] }
    (fun t => (t.reg .a, t.z, t.inIB, t.iramGet 0x5D)) = some (0, true, [0x3F], 9) := by decide -- W137
theorem test_outa : after .outa (board [(0x5C, 0x11)]) (fun t => (t.outIA, t.outputs)) =
    some (0x11, [.port .ia 0x11]) := by decide -- V125
theorem test_outb : after .outb (board [(0x5D, 0x22)]) (fun t => (t.outIB, t.outputs)) =
    some (0x22, [.port .ib 0x22]) := by decide -- V125
theorem test_outf : after .outf (board [(0x5E, 0x33)]) (fun t => (t.linesF0, t.outputs)) =
    some (0x13, [.port .f0 0x33]) := by decide -- V125
theorem test_outc : after .outc (board [(0x5F, 0x41)]) (fun t => (t.outC, t.outputs, t.status)) =
    some (0x41, [.port .c 0x41], .running) := by decide -- V125
theorem test_outc_stops : after .outc (board [(0x5F, 0x0C)]) (fun t => (t.status, t.pc)) =
      some (.stopped .powerOff, 0x6001) ∧
    after .outc (board [(0x5F, 0x04)]) (fun t => t.status) = some (.stopped .clockHalted) := by decide -- V128, V127
/-- Whatever the three NC bits read, they do not show through a mask of named signals (R347). -/
theorem test_nc_bits_are_masked : ∀ nc : Byte,
    isZero (((0x08 &&& namedSignals) ||| (nc &&& ~~~namedSignals)) &&& 0x08) = false ∧
    isZero (((0x08 &&& namedSignals) ||| (nc &&& ~~~namedSignals)) &&& 0x01) = true ∧
    isZero (((0x08 &&& namedSignals) ||| (nc &&& ~~~namedSignals)) &&& 0x0C) = false := by decide
theorem test_test_kon : after (.test 8) { board [] with inTest := [8] } (fun t => t.z) = some false :=
  congrArg some (test_nc_bits_are_masked (Config.anyByte 0)).1 -- V133
theorem test_test_other_signal : after (.test 1) { board [] with inTest := [8] } (fun t => t.z) = some true :=
  congrArg some (test_nc_bits_are_masked (Config.anyByte 0)).2.1 -- V134
theorem test_nopw : after .nopw { board [] with z := true } (fun t => (t.pc, t.z)) = some (0x6001, true) := by
  decide -- V140
theorem test_nopt : after .nopt { board [] with z := true } (fun t => (t.pc, t.z)) = some (0x6001, true) := by
  decide -- V140
theorem test_wait : after (.wait 0xFF) (board []) (fun t => t.pc) = some 0x6002 ∧
    cycleCount (.wait 0x60) (board []) = some 0x66 := by decide -- V140, W143
theorem test_waiti : after .waiti { board [] with c := true } (fun t => (t.d, t.c, t.reg .i, t.pc)) =
    some (0xFF, true, 0, 0x6001) := by decide -- V102
theorem test_undescribed_stop : stop .writ (board []) = some (.undefinedOpcode 0xD3) ∧
    stop .undefined16 (board []) = some (.undefinedOpcode 0x16) ∧
    stop .undefinedCD (board []) = some (.undefinedOpcode 0xCD) := by decide -- V142, V141, V143
theorem test_poke_then_peek : ((board []).poke 17985 [32, 215]).storedByte 17986 = 215 ∧
    (((board []).poke 17985 [32, 215]).peek 17985).1 = 32 := by decide -- 96_test_vectors_worked_2.md B.9

/-! ### Platforms of the spec's tables -/

/-- The board as a model with an area of R78 and no further RAM. -/
def boardOf (m : Model) (g : BasicArea) (bytes : List (Word × Byte) := []) : State :=
  { board [] bytes with platform := platformOf m g [] .at5F false }

/-- The area of the PC-1401. -/
def area1401 : BasicArea := ⟨"PC-1401", [.pc1401], 0x3800, 0x45CF⟩

/-- The largest area of the PC-1350 and PC-2500. -/
def area1350 : BasicArea := ⟨"PC-1350/2500 (21 K)", [.pc1350, .pc2500], 0x2030, 0x6C2F⟩

/-- The area of the PC-1245, above &8000. -/
def area1245 : BasicArea := ⟨"PC-1245", [.pc1245], 0xC030, 0xC5CF⟩

theorem test_pointer_bytes_are_ram : (boardOf .pc1401 area1401).backing 0x46E1 = .ram ∧
    (boardOf .pc1401 area1401).backing 0x45D0 = .nothing ∧ (boardOf .pc1350 area1350).backing 0x6F01 = .ram := by
  decide -- R78, R79

theorem test_pointer_low_byte_first :
    (boardOf .pc1401 area1401 [(0x46E1, 0x00), (0x46E2, 0x38)]).pointerAt 0x46E1 = 0x3800 := by decide -- R79

theorem test_external_rom : ((boardOf .pc1401 area1401 [(0x8000, 0x41)]).peek 0x8000).1 = 0x41 ∧
    (boardOf .pc1245 area1245).backing 0x8000 = .nothing := by decide -- R75, 90_conflicts.md C39

theorem test_key_port : (boardOf .pc1350 area1350).backing 0x3E00 = .device ∧
    (boardOf .pc2500 area1350).backing 0x3E00 = .ram := by decide -- R82

/-! ### The hypotheses of the statements are met -/

theorem witness_DecodedBytesAreTheEncoding : decode [0x10, 0x20, 0xFF, 0x37] = .ok (.lidp 0x20FF, [0x37]) := rfl

theorem witness_UndescribedFirstBytes :
    (decodeOpcode 0x16 []).wellFormed = false ∧ (decodeOpcode 0xDE []).wellFormed = false ∧
    (decodeOpcode 0x15 []).wellFormed = true ∧ (decodeOpcode 0xDF []).wellFormed = true := by decide

/-- A four-byte PTJ at &6000. -/
def ptjBoard : State := board [] [(0x6000, 0x7A), (0x6001, 3), (0x6002, 0x60), (0x6003, 0x12)]

theorem witness_StepRunsTheDecodedInstruction :
    ptjBoard.status = .running ∧ decode (ptjBoard.window ptjBoard.pc) = .ok (.ptj 3 0x6012, []) ∧
    ∀ k < instrLength (.ptj 3 0x6012), ptjBoard.fetchable (above ptjBoard.pc k) = true := ⟨rfl, rfl, by decide⟩

/-- The same with a CAL whose two bytes lie on both sides of the end of the internal ROM. -/
def romEdgeBoard : State :=
  { board [] [(0x1FFF, 0xE5), (0x2000, 0xA2), (0x2001, 0x37), (0x2002, 0x4D)] with pc := 0x1FFF }

theorem witness_StepRunsTheDecodedInstruction_at_the_rom_edge :
    romEdgeBoard.status = .running ∧
    decode (romEdgeBoard.window romEdgeBoard.pc) = .ok (.cal 0x05A2, [0x37, 0x4D]) ∧
    ∀ k < instrLength (.cal 0x05A2), romEdgeBoard.fetchable (above romEdgeBoard.pc k) = true :=
  ⟨rfl, rfl, by decide⟩

theorem witness_PokedCodeRunsAtOnce :
    (board []).status = .running ∧ ∀ k < instrLength (.lidp 0), (board []).backing (above (board []).pc k) = .ram := by
  decide

theorem witness_PokedCodeRunsAtOnce_at_the_end_of_ram :
    ({ board [] with pc := 0x7FFD }).status = .running ∧
    ∀ k < instrLength (.lidp 0), ({ board [] with pc := 0x7FFD }).backing (above 0x7FFD k) = .ram := by decide

theorem witness_OnlyRunningStatesStep :
    ({ board [] with status := .returned }).status ≠ .running ∧
    ({ board [] with status := .stopped .powerOff }).status ≠ .running ∧
    ({ board [] with status := .stopped .clockHalted }).status ≠ .running := by decide

theorem witness_HostEntryAndReturn :
    (board []).implemented 0x5E = true ∧ (board []).implemented (0x5E + 1) = true ∧
    (board []).implemented 0 = true ∧ (board []).implemented (0 + 1) = true := by decide

theorem witness_InternalMovesAndStack :
    ({ board [] with p := 0x5F, r := 0x5F }).implemented 0x5F = true ∧
    ({ board [] with p := 0, r := 0x60 }).implemented (0x60 - 1) = true ∧
    ({ wide [] with p := 0x7F, r := 0 }).implemented (0 - 1) = true := by decide

theorem witness_ExternalMoves : ({ board [] with p := 0x5F }).implemented ({ board [] with p := 0x5F }).p = true := by
  decide

theorem witness_AccessesByWhatAnswers :
    mixed.backing 0 = .internalRom ∧ mixed.backing 0x1FFF = .internalRom ∧ mixed.backing 0x2000 = .ram ∧
    mixed.backing 0x3DFF = .ram ∧ mixed.backing 0x3E00 = .device ∧ mixed.backing 0x3FFF = .ram ∧
    mixed.backing 0x4000 = .rom ∧ mixed.backing 0x4FFF = .rom ∧ mixed.backing 0x5000 = .nothing ∧
    mixed.backing 0xFFFF = .nothing := by decide

theorem witness_LoadsReturnTheLastStore :
    (board []).backing 0x2000 = .ram ∧ (board []).backing 0x7FFF = .ram ∧ (0x2001 : Word) ≠ 0x2000 ∧
    (board []).implemented 0x5F = true ∧ (0x5E : Ptr) ≠ 0x5F := by decide

theorem witness_StackUndoesItself_push : ∃ t, exec .push (board [(2, 7)]) = .next t := ⟨_, rfl⟩

theorem witness_StackUndoesItself_call :
    (∃ t, exec (.call 0x6004) (board []) = .next t) ∧ (board []).hostR ≠ some ((board []).r - 2) :=
  ⟨⟨_, rfl⟩, by decide⟩

theorem witness_StackUndoesItself_cal :
    (∃ t, exec (.cal 0x1FFF) ((board []).hostEntry 0x6000 0xFFFE) = .next t) ∧
    ((board []).hostEntry 0x6000 0xFFFE).hostR ≠ some (((board []).hostEntry 0x6000 0xFFFE).r - 2) :=
  ⟨⟨_, rfl⟩, by decide⟩

theorem witness_AddAndSubtractOnP : ({ board [] with p := 0x5F }).implemented ({ board [] with p := 0x5F }).p = true :=
  by decide

theorem witness_SixteenBitAddAndSubtract :
    ({ board [] with p := 0x5E }).implemented ({ board [] with p := 0x5E }).p = true ∧
    ({ board [] with p := 0x5E }).implemented (({ board [] with p := 0x5E }).p + 1) = true := by decide

theorem witness_LogicAndComparesOnP :
    ({ board [] with p := 0x5F }).implemented ({ board [] with p := 0x5F }).p = true := by decide

theorem witness_LogicOnDp : ({ board [] with r := 0x60 }).implemented (({ board [] with r := 0x60 }).r - 1) = true := by
  decide

theorem witness_IncrementsAndDecrements :
    (Instr.incn, Instr.decn, Reg.n, (0xCA : Byte)) ∈
      [(Instr.inci, Instr.deci, Reg.i, (0x40 : Byte)), (.incj, .decj, .j, 0xC0), (.inca, .deca, .a, 0x42),
       (.incb, .decb, .b, 0xC2), (.inck, .deck, .k, 0x48), (.incl, .decl, .l, 0xC8), (.incm, .decm, .m, 0x4A),
       (.incn, .decn, .n, 0xCA)] := by decide

/-! For the block statements: bounded tests of what they ask of two ranges. -/

theorem pairs_of_bounded {n : Nat} {R : Nat → Nat → Prop} (h : ∀ k ≤ n, ∀ j < k, R j k) :
    ∀ j k, j < k → k ≤ n → R j k := fun j k hj hk => h k hk j hj

theorem disjoint_of_bounded {n : Nat} {R : Nat → Nat → Prop} (h : ∀ k ≤ n, ∀ j ≤ n, R j k) :
    ∀ j k, j ≤ n → k ≤ n → R j k := fun j k hj hk => h k hk j hj

/-- Two ranges of three bytes, &10 and &20 up, all three counters at 2. -/
def blockBoard : State :=
  { board [(0, 2), (1, 2), (0x10, 1), (0x20, 9)] with p := 0x10, q := 0x20, dp := 0x2000 }

/-- All of internal RAM, both counters at &FF: a walk that meets every byte twice over. -/
def fullBoard : State := { wide [(0, 0xFF), (1, 0xFF)] with p := 1, q := 0, dp := 0x2000 }

/-- The longest walk that meets no byte twice: count &7F from &00, with P = Q. -/
def longBoard : State := { wide [(0, 0x7F), (1, 0x7F)] with dp := 0x1FFF }

theorem witness_MoveBlockCopies :
    ((Instr.mvw, Reg.i) ∈ [(Instr.mvw, Reg.i), (.mvb, .j)] ∧ 2 = (blockBoard.reg .i).toNat ∧
      blockBoard.existsUp blockBoard.p 2 ∧ blockBoard.existsUp blockBoard.q 2) ∧ 2 < 128 ∧
    ∀ j k, j < k → k ≤ 2 → up blockBoard.p j ≠ up blockBoard.q k := by
  refine ⟨?_, by decide, pairs_of_bounded (by decide)⟩; simp only [State.existsUp]; decide

theorem witness_MoveBlockCopies_longest :
    127 = (longBoard.reg .j).toNat ∧ longBoard.existsUp longBoard.p 127 ∧ longBoard.existsUp longBoard.q 127 ∧
    127 < 128 ∧ ∀ j k, j < k → k ≤ 127 → up longBoard.p j ≠ up longBoard.q k := by
  refine ⟨by decide, ?_, ?_, by decide, ?_⟩
  · simp only [State.existsUp]; decide
  · simp only [State.existsUp]; decide
  · intro j k hj hk h
    have h' := congrArg BitVec.toNat h
    simp [up, longBoard, BitVec.toNat_add] at h'
    change (0 + j) % 128 = (0 + k) % 128 at h'
    omega

theorem witness_MoveBlockSmears :
    255 = (fullBoard.reg .i).toNat ∧ fullBoard.existsUp fullBoard.p 255 ∧ fullBoard.existsUp fullBoard.q 255 ∧
    fullBoard.p = fullBoard.q + 1 := by
  simp only [State.existsUp]; decide +kernel

theorem witness_ExchangeBlockSwaps :
    ((Instr.exb, Reg.j) ∈ [(Instr.exw, Reg.i), (.exb, .j)] ∧ 2 = (blockBoard.reg .j).toNat ∧
      blockBoard.existsUp blockBoard.p 2 ∧ blockBoard.existsUp blockBoard.q 2) ∧
    ∀ j k, j ≤ 2 → k ≤ 2 → up blockBoard.p j ≠ up blockBoard.q k := by
  refine ⟨?_, disjoint_of_bounded (by decide)⟩; simp only [State.existsUp]; decide

theorem witness_MoveExternalBlockCopies :
    ((Instr.mvwd, Reg.i) ∈ [(Instr.mvwd, Reg.i), (.mvbd, .j)] ∧ 127 = (longBoard.reg .i).toNat ∧
      longBoard.existsUp longBoard.p 127) ∧ 127 < 128 ∧
    ∀ k ≤ 127, longBoard.fetchable (above longBoard.dp k) = true := by
  simp only [State.existsUp]; decide +kernel

theorem witness_ExchangeExternalBlockSwaps :
    ((Instr.exbd, Reg.j) ∈ [(Instr.exwd, Reg.i), (.exbd, .j)] ∧ 127 = (longBoard.reg .j).toNat ∧
      longBoard.existsUp longBoard.p 127) ∧ 127 < 128 ∧
    (∀ k ≤ 127, longBoard.fetchable (above longBoard.dp k) = true) ∧
    longBoard.backing (above longBoard.dp 0) ≠ .ram ∧ longBoard.backing (above longBoard.dp 1) = .ram := by
  simp only [State.existsUp]; decide +kernel

theorem witness_FillsStoreA :
    255 = (fullBoard.reg .i).toNat ∧ fullBoard.existsUp fullBoard.p 255 ∧ 0 = ((board []).reg .i).toNat ∧
    (board []).existsUp (board []).p 0 := by
  simp only [State.existsUp]; decide +kernel

/-- DATA from the last byte of the internal ROM on, to &20. -/
def dataBoard : State := { board [(0, 2), (3, 0x1F), (2, 0xFF)] with p := 0x20 }

theorem witness_DataCopiesProgramSpace :
    2 = (dataBoard.reg .i).toNat ∧ dataBoard.existsUp dataBoard.p 2 ∧ 2 < 128 ∧
    (∀ k ≤ 2, dataBoard.fetchable (above dataBoard.ba k) = true) ∧
    ∀ k ≤ 2, up dataBoard.p k ≠ regAddr .a ∧ up dataBoard.p k ≠ regAddr .b := by
  simp only [State.existsUp]; decide

/-- Decimal strings 1099 at &0B down and 9999 at &09 down, A decimal 14. -/
def decimalBoard : State :=
  { board [(0, 1), (2, 0x14), (8, 0x99), (9, 0x99), (0xA, 0x10), (0xB, 0x99)] with p := 0xB, q := 9 }

theorem witness_BcdAddendIsDecimalArithmetic :
    1 = (decimalBoard.reg .i).toNat ∧ decimalBoard.existsDown decimalBoard.p 1 ∧ 1 < 128 ∧
    decimalBoard.isDecimal decimalBoard.p 1 ∧ isBcd (decimalBoard.reg .a) = true := by
  simp only [State.existsDown, State.isDecimal]; decide

/-- The longest decimal string, &7F down to &01: one of 128 bytes has the count &7F among its bytes. -/
def longDecimalBoard : State := { wide [(0, 0x7E)] with p := 0x7F }

theorem witness_BcdAddendIsDecimalArithmetic_longest :
    126 = (longDecimalBoard.reg .i).toNat ∧ longDecimalBoard.existsDown longDecimalBoard.p 126 ∧ 126 < 128 ∧
    longDecimalBoard.isDecimal longDecimalBoard.p 126 ∧ isBcd (longDecimalBoard.reg .a) = true := by
  simp only [State.existsDown, State.isDecimal]; decide +kernel

theorem witness_BcdStringIsDecimalArithmetic :
    1 = (decimalBoard.reg .i).toNat ∧ decimalBoard.existsDown decimalBoard.p 1 ∧
    decimalBoard.existsDown decimalBoard.q 1 ∧ 1 < 128 ∧ decimalBoard.isDecimal decimalBoard.p 1 ∧
    decimalBoard.isDecimal decimalBoard.q 1 ∧
    ∀ j k, j < k → k ≤ 1 → down decimalBoard.p j ≠ down decimalBoard.q k := by
  have strings : 1 = (decimalBoard.reg .i).toNat ∧ decimalBoard.existsDown decimalBoard.p 1 ∧
      decimalBoard.existsDown decimalBoard.q 1 ∧ 1 < 128 ∧ decimalBoard.isDecimal decimalBoard.p 1 ∧
      decimalBoard.isDecimal decimalBoard.q 1 := by
    simp only [State.existsDown, State.isDecimal]; decide
  exact ⟨strings.1, strings.2.1, strings.2.2.1, strings.2.2.2.1, strings.2.2.2.2.1, strings.2.2.2.2.2,
    pairs_of_bounded (by decide)⟩

theorem witness_DigitShiftsMoveOneDigit :
    127 = (longBoard.reg .i).toNat ∧ longBoard.existsUp longBoard.p 127 ∧ longBoard.existsDown longBoard.p 127 ∧
    127 < 128 := by
  simp only [State.existsUp, State.existsDown]; decide +kernel

theorem witness_LoopCountsOnTheStack :
    ({ board [(0x5F, 1)] with r := 0x5F }).implemented 0x5F = true ∧
    ({ board [(0x5F, 1)] with r := 0x5F }).iramGet 0x5F ≠ 0 ∧
    (board []).implemented (board []).r = true ∧ (board []).iramGet (board []).r = 0 := by decide

theorem witness_CallsAndReturns :
    ({ board [] with r := 0x60 }).implemented (0x60 - 1) = true ∧
    ({ board [] with r := 0x60 }).implemented (0x60 - 2) = true ∧
    ({ board [] with r := 0x5E }).implemented 0x5E = true ∧
    ({ board [] with r := 0x5E }).implemented (0x5E + 1) = true := by decide

theorem witness_TableJumpTakesTheFirstMatch_unset : (board []).tj = none := rfl

/-- The first entry, the last entry, none of them. -/
theorem witness_TableJumpTakesTheFirstMatch :
    (tableBoard 1).tj = some 3 ∧
    (∀ k < 3 * (3 : Byte).toNat + 2, (tableBoard 1).fetchable (above (tableBoard 1).pc (1 + k)) = true) ∧
    (tableBoard 1).storedByte (above (tableBoard 1).pc (1 + 3 * 0)) = (tableBoard 1).reg .a ∧
    (∀ k < 2, (tableBoard 3).storedByte (above (tableBoard 3).pc (1 + 3 * k)) ≠ (tableBoard 3).reg .a) ∧
    (tableBoard 3).storedByte (above (tableBoard 3).pc (1 + 3 * 2)) = (tableBoard 3).reg .a ∧
    ∀ k < (3 : Byte).toNat,
      (tableBoard 9).storedByte (above (tableBoard 9).pc (1 + 3 * k)) ≠ (tableBoard 9).reg .a := by decide

theorem witness_TableJumpTakesTheFirstMatch_empty :
    ({ board [] with tj := some 0 }).tj = some 0 ∧
    (∀ k < 3 * (0 : Byte).toNat + 2,
      ({ board [] with tj := some 0 }).fetchable (above 0x6000 (1 + k)) = true) ∧
    ∀ k < (0 : Byte).toNat, ({ board [] with tj := some 0 }).storedByte (above 0x6000 (1 + 3 * k)) ≠
      ({ board [] with tj := some 0 }).reg .a :=
  ⟨rfl, by decide, fun k h => absurd h (Nat.not_lt_zero k)⟩

theorem witness_InputsSampleThePort :
    ({ board [] with inIA := [0], inIB := [0xFF, 1] }).inIA = 0 :: [] ∧
    ({ board [] with inIA := [0], inIB := [0xFF, 1] }).inIB = 0xFF :: [1] := by decide

theorem witness_TestSamplesTheSignals :
    ({ board [] with inTest := [8] }).inTest = 8 :: [] ∧ (0xCB : Byte) &&& 0x34 = 0 ∧
    (8 : Byte) &&& 0x0C &&& 0xCB ≠ 0 := by decide

theorem witness_UndescribedFirstBytesStop : Instr.writ.wellFormed = false ∧ Instr.undefinedDE.wellFormed = false := by
  decide

theorem witness_LoadsOnlyWriteWhatTheyMay : familyOf .mvmd = .load ∧ ∃ t, exec .mvmd (board []) = .next t :=
  ⟨rfl, _, rfl⟩

theorem witness_ArithmeticOnlyWritesWhatItMay : familyOf (.anid 1) = .arith ∧ ∃ t, exec (.anid 1) (board []) = .next t :=
  ⟨rfl, _, rfl⟩

theorem witness_CountsOnlyWriteWhatTheyMay : familyOf .iys = .count ∧ ∃ t, exec .iys (board []) = .next t :=
  ⟨rfl, _, rfl⟩

theorem witness_BlocksOnlyWriteWhatTheyMay : familyOf .exwd = .block ∧ ∃ t, exec .exwd blockBoard = .next t :=
  ⟨rfl, _, rfl⟩

theorem witness_ControlOnlyWritesWhatItMay : familyOf .dtj = .control ∧ ∃ t, exec .dtj (tableBoard 2) = .next t :=
  ⟨rfl, _, rfl⟩

theorem witness_PortsOnlyWriteWhatTheyMay : familyOf .outc = .port ∧ ∃ t, exec .outc (board []) = .next t :=
  ⟨rfl, _, rfl⟩

theorem witness_OnlyTheNamedStops :
    exec .undefined16 (board []) = .fault (.undefinedOpcode 0x16) ∧
    exec .ldm { board [] with p := 0x60 } = .fault (.unimplementedIram 0x60) ∧
    exec .dtj (board []) = .fault (.tableJumpUnprepared 0x6000) := ⟨rfl, rfl, rfl⟩

theorem witness_EveryDescribedInstructionCompletes :
    Instr.dtj.wellFormed = true ∧ ({ wide [] with tj := some 0 }).platform.iramTop = .at7F ∧
    (Instr.dtj = .dtj → ({ wide [] with tj := some 0 }).tj ≠ none) := by decide

/-- A step from a state with an input still to come, an internal-RAM byte that does not exist, ROM and RAM. -/
theorem witness_WhatNoStepChanges :
    (∃ t, step (board [] [(0x6000, 0x4C)]) = .next t) ∧ (board []).implemented 0x60 = false ∧
    (board []).backing 0x1FFF ≠ .ram := ⟨⟨_, rfl⟩, by decide, by decide⟩

theorem witness_InternalRomIsInvisibleToData :
    (board []).mem.wf ∧ (0x1FFF : Word).toNat < 0x2000 ∧ Instr.ldd ≠ .read ∧ Instr.ldd ≠ .readm ∧
    Instr.ldd ≠ .data ∧ Instr.ldd ≠ .dtj ∧ (∃ t, exec .ldd { board [] with dp := 0x1FFF } = .next t) ∧
    ∃ f, exec .ldm { board [] with p := 0x60 } = .fault f :=
  ⟨by decide, by decide, by decide, by decide, by decide, by decide, ⟨_, rfl⟩, _, rfl⟩

/-- An OUTC with OFF set: the state it leaves is not running, and the control port agrees. -/
theorem witness_EveryStepKeepsTheInvariant :
    (board [(0x5F, 0x0C)] [(0x6000, 0xDF)]).Inv ∧ ∃ t, step (board [(0x5F, 0x0C)] [(0x6000, 0xDF)]) = .next t ∧
      t.status = .stopped .powerOff := ⟨⟨by decide, trivial⟩, _, rfl, rfl⟩

theorem witness_PlatformsFollowTheTables :
    area1350 ∈ basicAreas ∧ Model.pc1350 ∈ area1350.models ∧
    (boardOf .pc1350 area1350).platform = platformOf .pc1350 area1350 [] .at5F false ∧
    hasKeyPort .pc1350 = true ∧
    (area1350.first ≤ (0x2030 : Word).toNat ∧ (0x6C2F : Word).toNat ≤ area1350.last ∧ (0x6C2F : Word) ≠ 0x3E00) ∧
    (0x66FC ∈ (systemPointers .pc1350).addresses ∧ (0x66FD : Word).toNat = 0x66FC + 1) ∧
    area1350.last < 0x8000 ∧ 0x8000 ≤ (0x8000 : Word).toNat ∧ 0x8000 ≤ (0xFFFF : Word).toNat := by decide

end Sys2Proof.Tests
end

section
/-! SUPPORT. What a step can do, said once: it moves the state by single writes of named places (`Write`), one after
another (`Writes`). What all of them keep is then one induction over the writes, and the frame of an instruction is
the list of places its writes name (10_state.md rules R36 and R43). -/

namespace Sys2Proof.Machine

/-! ### Single writes -/

/-- One write to a state, at a place of the list: the primitives every meaning is made of. The pc is free; a cell of
internal RAM exists where it is written (R29), a byte of memory is RAM (20_memory.md rule R64), the outputs grow at
their end and the supplied inputs are taken from their front (45_io_timing_misc.md rule R340). -/
inductive Write (places : List Place) (s : State) : State → Prop
  | pc (w : Word) : Write places s { s with pc := w }
  | cell (a : Ptr) (v : Byte) (present : s.implemented a = true) (here : .iram a ∈ places) :
      Write places s (s.iramSet a v)
  | byte (a : Word) (v : Byte) (ram : s.backing a = .ram) (here : .mem a ∈ places) : Write places s (s.storeByte a v)
  | p (v : Ptr) (here : .p ∈ places) : Write places s { s with p := v }
  | q (v : Ptr) (here : .q ∈ places) : Write places s { s with q := v }
  | r (v : Ptr) (here : .r ∈ places) : Write places s { s with r := v }
  | dp (w : Word) (here : .dp ∈ places) : Write places s { s with dp := w }
  | c (b : Bool) (here : .c ∈ places) : Write places s { s with c := b }
  | z (b : Bool) (here : .z ∈ places) : Write places s { s with z := b }
  | d (v : Byte) (here : .d ∈ places) : Write places s { s with d := v }
  | tj (v : Option Byte) (here : .tj ∈ places) : Write places s { s with tj := v }
  | status (v : Status) (here : .status ∈ places) : Write places s { s with status := v }
  | draws (n : Nat) (here : .draws ∈ places) : Write places s { s with draws := n }
  | drive (o : OutPort) (v : Byte) (here : .latch o ∈ places) (told : .outputs ∈ places) :
      Write places s (s.portOut o v)
  | tell (e : OutEvent) (told : .outputs ∈ places) : Write places s { s with outputs := s.outputs ++ [e] }
  | takeIA (v : Byte) (rest : List Byte) (front : s.inIA = v :: rest) (here : .input .ia ∈ places) :
      Write places s { s with inIA := rest }
  | takeIB (v : Byte) (rest : List Byte) (front : s.inIB = v :: rest) (here : .input .ib ∈ places) :
      Write places s { s with inIB := rest }
  | takeTest (v : Byte) (rest : List Byte) (front : s.inTest = v :: rest) (here : .testInput ∈ places) :
      Write places s { s with inTest := rest }

/-- A place holds what it held where nothing happened. -/
theorem samePlace_refl (s : State) (pl : Place) : samePlace s s pl := by cases pl <;> rfl

/-- A place kept twice is kept. -/
theorem samePlace_trans (s t u : State) (pl : Place) (first : samePlace s t pl) (second : samePlace t u pl) :
    samePlace s u pl := by
  cases pl <;> exact Eq.trans second first

/-- The byte last driven on a port after a byte was driven (45_io_timing_misc.md rule R340). -/
theorem latch_portOut (s : State) (o o' : OutPort) (v : Byte) :
    (s.portOut o v).latch o' = if o = o' then v else s.latch o' := by
  cases o <;> cases o' <;> rfl

/-- A single write keeps every place but those it names. -/
theorem Write.samePlace {places : List Place} {s t : State} (w : Write places s t) (pl : Place)
    (out : pl ∉ places) : samePlace s t pl := by
  cases w with
  | pc => cases pl <;> rfl
  | cell a v _ here =>
    cases pl with
    | iram b =>
      have other : a ≠ b := fun same => out (same ▸ here)
      exact (iramGet_iramSet s a b v).trans (if_neg other)
    | _ => rfl
  | byte a v _ here =>
    cases pl with
    | mem b =>
      have other : a ≠ b := fun same => out (same ▸ here)
      exact (storedByte_storeByte s a b v).trans (if_neg other)
    | _ => rfl
  | p _ here => cases pl with | p => exact absurd here out | _ => rfl
  | q _ here => cases pl with | q => exact absurd here out | _ => rfl
  | r _ here => cases pl with | r => exact absurd here out | _ => rfl
  | dp _ here => cases pl with | dp => exact absurd here out | _ => rfl
  | c _ here => cases pl with | c => exact absurd here out | _ => rfl
  | z _ here => cases pl with | z => exact absurd here out | _ => rfl
  | d _ here => cases pl with | d => exact absurd here out | _ => rfl
  | tj _ here => cases pl with | tj => exact absurd here out | _ => rfl
  | status _ here => cases pl with | status => exact absurd here out | _ => rfl
  | draws _ here => cases pl with | draws => exact absurd here out | _ => rfl
  | drive o v here told =>
    cases pl with
    | outputs => exact absurd told out
    | latch o' =>
      have other : o ≠ o' := fun same => out (same ▸ here)
      exact (latch_portOut s o o' v).trans (if_neg other)
    | _ => cases o <;> rfl
  | tell _ told => cases pl with | outputs => exact absurd told out | _ => rfl
  | takeIA _ _ _ here =>
    cases pl with
    | input i => cases i with | ia => exact absurd here out | ib => rfl
    | _ => rfl
  | takeIB _ _ _ here =>
    cases pl with
    | input i => cases i with | ia => rfl | ib => exact absurd here out
    | _ => rfl
  | takeTest _ _ _ here => cases pl with | testInput => exact absurd here out | _ => rfl

/-- No write changes the platform. -/
theorem Write.platform {places : List Place} {s t : State} (w : Write places s t) : t.platform = s.platform := by
  cases w with
  | drive o v _ _ => exact portOut_platform s o v
  | _ => rfl

/-- No write changes the host's record of the run. -/
theorem Write.hostR {places : List Place} {s t : State} (w : Write places s t) : t.hostR = s.hostR := by
  cases w with
  | drive o v _ _ => exact portOut_hostR s o v
  | _ => rfl

/-- Every write keeps the canonical form of memory (20_memory.md rule R60). -/
theorem Write.mem_wf {places : List Place} {s t : State} (w : Write places s t) (h : s.mem.wf) : t.mem.wf := by
  cases w with
  | byte a v _ _ => exact write_wf s.mem a.toNat v a.isLt h
  | drive o v _ _ => exact (portOut_mem s o v).symm ▸ h
  | _ => exact h

/-! ### Writes one after another -/

/-- The second state is reached from the first by single writes at places of the list. -/
def Writes (places : List Place) : State → State → Prop := Relation.ReflTransGen (Write places)

namespace Writes

variable {places : List Place} {s t u : State}

theorem refl (places : List Place) (s : State) : Writes places s s := Relation.ReflTransGen.refl

theorem tail (h : Writes places s t) (w : Write places t u) : Writes places s u := Relation.ReflTransGen.tail h w

/-- A relation between states that is reflexive and transitive holds of what writes reach, if it holds of each. -/
theorem keeps (rel : State → State → Prop) (self : ∀ s, rel s s) (trans : ∀ s t u, rel s t → rel t u → rel s u)
    (each : ∀ s t, Write places s t → rel s t) (h : Writes places s t) : rel s t := by
  induction h with
  | refl => exact self s
  | tail _ w ih => exact trans _ _ _ ih (each _ _ w)

/-- Writes keep every place that is not listed. -/
theorem samePlace (h : Writes places s t) (pl : Place) (out : pl ∉ places) : samePlace s t pl :=
  h.keeps (fun s t => Machine.samePlace s t pl) (samePlace_refl · pl) (samePlace_trans · · · pl)
    fun _ _ w => w.samePlace pl out

theorem platform (h : Writes places s t) : t.platform = s.platform :=
  h.keeps (fun s t => t.platform = s.platform) (fun _ => rfl) (fun _ _ _ first second => second.trans first)
    fun _ _ w => w.platform

theorem hostR (h : Writes places s t) : t.hostR = s.hostR :=
  h.keeps (fun s t => t.hostR = s.hostR) (fun _ => rfl) (fun _ _ _ first second => second.trans first)
    fun _ _ w => w.hostR

theorem mem_wf (h : Writes places s t) : s.mem.wf → t.mem.wf :=
  h.keeps (fun s t => s.mem.wf → t.mem.wf) (fun _ => id) (fun _ _ _ first second => second ∘ first)
    fun _ _ w => w.mem_wf

/-- What writes reach, the frame of their places allows. -/
theorem onlyWrites (h : Writes places s t) : OnlyWrites places s t := ⟨h.samePlace, h.platform, h.hostR⟩

/-! ### The updates of the state as writes

Each lemma adds one update. That its place is listed is left to `simp` where the list is written out. -/

theorem advance (h : Writes places s u) (n : Word) : Writes places s (u.advance n) := h.tail (.pc _)

theorem jump (h : Writes places s u) (w : Word) : Writes places s { u with pc := w } := h.tail (.pc w)

theorem p (h : Writes places s u) (v : Ptr) (here : .p ∈ places := by simp [mayWrite]) :
    Writes places s { u with p := v } :=
  h.tail (.p v here)

theorem q (h : Writes places s u) (v : Ptr) (here : .q ∈ places := by simp [mayWrite]) :
    Writes places s { u with q := v } :=
  h.tail (.q v here)

theorem r (h : Writes places s u) (v : Ptr) (here : .r ∈ places := by simp [mayWrite]) :
    Writes places s { u with r := v } :=
  h.tail (.r v here)

theorem dp (h : Writes places s u) (w : Word) (here : .dp ∈ places := by simp [mayWrite]) :
    Writes places s { u with dp := w } :=
  h.tail (.dp w here)

theorem c (h : Writes places s u) (b : Bool) (here : .c ∈ places := by simp [mayWrite]) :
    Writes places s { u with c := b } :=
  h.tail (.c b here)

theorem z (h : Writes places s u) (b : Bool) (here : .z ∈ places := by simp [mayWrite]) :
    Writes places s { u with z := b } :=
  h.tail (.z b here)

theorem d (h : Writes places s u) (v : Byte) (here : .d ∈ places := by simp [mayWrite]) :
    Writes places s { u with d := v } :=
  h.tail (.d v here)

theorem tj (h : Writes places s u) (v : Option Byte) (here : .tj ∈ places := by simp [mayWrite]) :
    Writes places s { u with tj := v } := h.tail (.tj v here)

theorem status (h : Writes places s u) (v : Status) (here : .status ∈ places := by simp [mayWrite]) :
    Writes places s { u with status := v } := h.tail (.status v here)

theorem pAndQ (h : Writes places s u) (v w : Ptr) (hereP : .p ∈ places := by simp [mayWrite])
    (hereQ : .q ∈ places := by simp [mayWrite]) : Writes places s { u with p := v, q := w } := (h.p v hereP).q w hereQ

theorem pAndDp (h : Writes places s u) (v : Ptr) (w : Word) (hereP : .p ∈ places := by simp [mayWrite])
    (hereDp : .dp ∈ places := by simp [mayWrite]) : Writes places s { u with p := v, dp := w } :=
  (h.p v hereP).dp w hereDp

theorem setFlags (h : Writes places s u) (x y : Bool) (hereC : .c ∈ places := by simp [mayWrite])
    (hereZ : .z ∈ places := by simp [mayWrite]) : Writes places s (u.setFlags x y) := (h.c x hereC).z y hereZ

theorem countDown (h : Writes places s u) (here : .d ∈ places := by simp [mayWrite]) : Writes places s u.countDown :=
  h.d _ here

/-- A register is written whatever `IRAM_TOP` is (10_state.md rules R22 and R29). -/
theorem setReg (h : Writes places s u) (g : Reg) (v : Byte) (here : regPlace g ∈ places := by simp [mayWrite]) :
    Writes places s (u.setReg g v) := h.tail (.cell _ v (implemented_regAddr u g) here)

theorem setPair (h : Writes places s u) (hi lo : Reg) (w : Word) (hereLo : regPlace lo ∈ places := by simp [mayWrite])
    (hereHi : regPlace hi ∈ places := by simp [mayWrite]) : Writes places s (u.setPair hi lo w) :=
  (h.setReg lo _ hereLo).setReg hi _ hereHi

theorem drawByte (h : Writes places s u) (here : .draws ∈ places := by simp [mayWrite]) :
    Writes places s u.drawByte.2 :=
  h.tail (.draws _ here)

theorem drawPtr (h : Writes places s u) (here : .draws ∈ places := by simp [mayWrite]) : Writes places s u.drawPtr.2 :=
  h.tail (.draws _ here)

theorem drawFlag (h : Writes places s u) (here : .draws ∈ places := by simp [mayWrite]) :
    Writes places s u.drawFlag.2 :=
  h.tail (.draws _ here)

theorem memRead (h : Writes places s u) (a : Word) (here : .draws ∈ places := by simp [mayWrite]) :
    Writes places s (u.memRead a).2 := by
  rcases memRead_state u a with e | e <;> rw [e]
  · exact h
  · exact h.drawByte here

theorem codeRead (h : Writes places s u) (a : Word) (here : .draws ∈ places := by simp [mayWrite]) :
    Writes places s (u.codeRead a).2 := by
  rcases codeRead_state u a with e | e <;> rw [e]
  · exact h
  · exact h.drawByte here

/-- A data write stores in RAM, tells a device, or is lost (20_memory.md rule R64). -/
theorem memWrite (h : Writes places s u) (a : Word) (v : Byte) (here : .mem a ∈ places := by simp [mayWrite])
    (told : .outputs ∈ places := by simp [mayWrite]) : Writes places s (u.memWrite a v) := by
  rcases memWrite_cases u a v with ⟨ram, e⟩ | ⟨_, e⟩ | ⟨_, _, e⟩ <;> rw [e]
  · exact h.tail (.byte a v ram here)
  · exact h.tail (.tell _ told)
  · exact h

theorem portOut (h : Writes places s u) (o : OutPort) (v : Byte) (here : .latch o ∈ places := by simp [mayWrite])
    (told : .outputs ∈ places := by simp [mayWrite]) : Writes places s (u.portOut o v) := h.tail (.drive o v here told)

theorem portIn (h : Writes places s u) (i : InPort) (here : .input i ∈ places := by simp [mayWrite])
    (drawn : .draws ∈ places := by simp [mayWrite]) : Writes places s (u.portIn i).2 := by
  rcases portIn_cases u i with ⟨v, rest, rfl, front, e⟩ | ⟨v, rest, rfl, front, e⟩ | e <;> rw [e]
  · exact h.tail (.takeIA v rest front here)
  · exact h.tail (.takeIB v rest front here)
  · exact h.drawByte drawn

theorem testIn (h : Writes places s u) (here : .testInput ∈ places := by simp [mayWrite])
    (drawn : .draws ∈ places := by simp [mayWrite]) :
    Writes places s u.testIn.2 := by
  have sampled : Writes places s u.sampleTest.2 := by
    rcases sampleTest_cases u with ⟨v, rest, front, e⟩ | e <;> rw [e]
    · exact h.tail (.takeTest v rest front here)
    · exact h.drawByte drawn
  exact sampled.drawByte drawn

/-- The table search of DTJ reads program space only. -/
theorem searchTable (h : Writes places s u) (v : Byte) (n : Nat) (a : Word)
    (here : .draws ∈ places := by simp [mayWrite]) :
    Writes places s (searchTable v n a u).2 := by
  induction n generalizing a u with
  | zero => exact (h.codeRead _ here).codeRead _ here
  | succ n ih =>
    simp only [Machine.searchTable]
    split
    · exact ((h.codeRead _ here).codeRead _ here).codeRead _ here
    · exact ih (h.codeRead _ here) _

/-- The reading of operand bytes reads program space only. -/
theorem fetchBytes (h : Writes places s u) (n : Nat) (a : Word) (here : .draws ∈ places := by simp [mayWrite]) :
    Writes places s (fetchBytes n a u).2 := by
  induction n generalizing a u with
  | zero => exact h
  | succ n ih => exact ih (h.codeRead _ here) _

end Writes

/-- A fetch changes nothing but the draws (30_encoding.md rule R107). -/
theorem fetch_writes (s : State) : Writes [.draws] s (fetch s).2 := ((Writes.refl _ s).codeRead _).fetchBytes _ _

end Sys2Proof.Machine
end

section
/-! SUPPORT. What a computation does, as one judgement with a rule for each way a meaning is put together: if it
answers, then so, and it answers wherever all of internal RAM exists. Frames (10_state.md rule R43) and completion
(60_exceptions.md rule R391) are its two halves. -/

namespace Sys2Proof.Machine

/-- The computation `x`, made in `s`, answers nothing but what `post` allows, and it answers where `IRAM_TOP` is &7F. -/
structure Runs {α : Type} (s : State) (x : Except Fault α) (post : α → Prop) : Prop where
  answers : ∀ a, x = .ok a → post a
  completes : s.platform.iramTop = .at7F → ∃ a, x = .ok a

/-- The outcome `r` of an instruction in `s` is a state that writes of the listed places reach, and it is a state where
`IRAM_TOP` is &7F. -/
structure Within (places : List Place) (s : State) (r : Result) : Prop where
  writes : ∀ t, r = .next t → Writes places s t
  completes : s.platform.iramTop = .at7F → ∃ t, r = .next t

namespace Runs

variable {α β : Type} {places : List Place} {s u : State} {post : α → Prop}

theorem ok {a : α} (h : post a) : Runs s (.ok a) post := ⟨fun _ e => by cases e; exact h, fun _ => ⟨a, rfl⟩⟩

theorem bind {x : Except Fault β} {f : β → Except Fault α} {mid : β → Prop} (first : Runs s x mid)
    (rest : ∀ b, mid b → Runs s (f b) post) : Runs s (x >>= f) post where
  answers a e := by
    obtain ⟨b, hb, ha⟩ := (bind_eq_ok _ _ _).mp e
    exact (rest b (first.answers b hb)).answers a ha
  completes full := by
    obtain ⟨b, hb⟩ := first.completes full
    obtain ⟨a, ha⟩ := (rest b (first.answers b hb)).completes full
    exact ⟨a, (bind_eq_ok _ _ _).mpr ⟨b, hb, ha⟩⟩

/-- A read of internal RAM on the way. -/
theorem read (top : u.platform = s.platform) {a : Ptr} {f : Byte → Except Fault α}
    (rest : Runs s (f (u.iramGet a)) post) :
    Runs s (u.readIram a >>= f) post :=
  bind (mid := fun v => v = u.iramGet a)
    ⟨fun v e => ((readIram_eq_ok u a v).mp e).2,
      fun full => ⟨_, readIram_implemented u a (implemented_at7F u a (top ▸ full))⟩⟩
    fun _ e => e ▸ rest

/-- A write of internal RAM on the way, at a listed place. -/
theorem write (h : Writes places s u) {a : Ptr} {v : Byte} {f : State → Except Fault α}
    (rest : Writes places s (u.iramSet a v) → Runs s (f (u.iramSet a v)) post)
    (here : .iram a ∈ places := by simp [mayWrite]) :
    Runs s (u.writeIram a v >>= f) post :=
  bind (mid := fun t => t = u.iramSet a v ∧ u.implemented a = true)
    ⟨fun t e => ((writeIram_eq_ok u t a v).mp e).symm,
      fun full => ⟨_, writeIram_implemented u a v (implemented_at7F u a (h.platform ▸ full))⟩⟩
    fun _ ⟨e, present⟩ => e ▸ rest (h.tail (.cell a v present here))

/-- A loop whose every pass goes on from the property of its number to that of the next. -/
theorem loop {body : α → Except Fault α} (inv : Nat → α → Prop) (n : Nat) {x : α}
    (pass : ∀ k ≤ n, ∀ x, inv k x → Runs s (body x) (inv (k + 1))) (start : inv 0 x) :
    Runs s (repeatBody body n x) (inv (n + 1)) where
  answers y run := by
    have counts := repeatBody_counts body (fun k x => k ≤ n + 1 → inv k x)
      (fun k x y once here le => (pass k (by omega) x (here (by omega))).answers y once) n 0 x y run fun _ => start
    simpa only [Nat.zero_add] using counts (by omega)
  completes full := by
    obtain ⟨y, run, _⟩ := repeatBody_completes body inv n 0 x (fun k _ last x here => by
      obtain ⟨y, once⟩ := (pass k (by omega) x here).completes full
      exact ⟨y, once, (pass k (by omega) x here).answers y once⟩) start
    exact ⟨y, run⟩

end Runs

theorem Within.outcome {places : List Place} {s : State} {x : Except Fault State} (h : Runs s x (Writes places s)) :
    Within places s (outcome x) :=
  ⟨fun t e => h.answers t ((outcome_eq_next x t).mp e),
    fun full => (h.completes full).imp fun _ e => (outcome_eq_next x _).mpr e⟩

theorem Within.next {places : List Place} {s t : State} (h : Writes places s t) : Within places s (.next t) :=
  .outcome (.ok h)

/-! ### Loads, stores, moves, exchanges and the stack (40_load_transfer.md) -/

theorem loadImmediate_within (s : State) (g : Reg) (n : Byte) : Within [regPlace g] s (s.loadImmediate g n) :=
  .next (((Writes.refl _ s).setReg g n).advance 2)

theorem exec_load_within (i : Instr) (s : State) (fam : familyOf i = .load) : Within (mayWrite i s) s (exec i s) := by
  have start {places : List Place} : Writes places s s := .refl _ s
  cases i with
  | lii n => exact loadImmediate_within s .i n
  | lij n => exact loadImmediate_within s .j n
  | lia n => exact loadImmediate_within s .a n
  | lib n => exact loadImmediate_within s .b n
  | lidp nm => exact .next ((start.dp nm).advance 3)
  | lidl n => exact .next ((start.dp _).advance 2)
  | lip n => exact .next ((start.p _).advance 2)
  | liq n => exact .next ((start.q _).advance 2)
  | lp l => exact .next ((start.p _).advance 1)
  | ldp => exact .next ((start.setReg .a _).advance 1)
  | ldq => exact .next ((start.setReg .a _).advance 1)
  | ldr => exact .next ((start.setReg .a _).advance 1)
  | ra => exact .next ((start.setReg .a _).advance 1)
  | stp => exact .next ((start.p _).advance 1)
  | stq => exact .next ((start.q _).advance 1)
  | str => exact .next ((start.r _).advance 1)
  | ldm => exact .outcome (.read rfl (.ok ((start.setReg .a _).advance 1)))
  | ldd => exact .next (((start.memRead _).setReg .a _).advance 1)
  | std => exact .next ((start.memWrite _ _).advance 1)
  | mvdm => exact .outcome (.read rfl (.ok ((start.memWrite _ _).advance 1)))
  | mvmd => exact .outcome (.write (start.memRead _) fun stored => .ok (stored.advance 1))
  | exab => exact .next (((start.setReg .a _).setReg .b _).advance 1)
  | exam => exact .outcome (.read rfl (.write (start.setReg .a _) fun stored => .ok (stored.advance 1)))
  | swp => exact .next ((start.setReg .a _).advance 1)
  | read => exact .next (((start.codeRead _).setReg .a _).advance 1)
  | readm => exact .outcome (.write (start.codeRead _) fun stored => .ok (stored.advance 1))
  | push => exact .outcome (.write (start.r _) fun stored => .ok (stored.advance 1))
  | pop => exact .outcome (.read rfl (.ok (((start.setReg .a _).r _).advance 1)))
  | leave => exact .outcome (.write start fun stored => .ok (stored.advance 1))
  | _ => cases fam

/-! ### Arithmetic, logic, compares, shifts and carry (41_arithmetic_logic.md) -/

theorem arithAtP_within (s : State) (op : Byte → Byte → Bool → Alu8) (y : Byte) (cin : Bool) (length : Word) :
    Within [.iram s.p, .c, .z] s (s.arithAtP op y cin length) :=
  .outcome (.read rfl (.write (.refl _ s) fun stored => .ok ((stored.setFlags _ _).advance _)))

theorem logicAtP_within (s : State) (op : Byte → Byte → Byte) (y : Byte) (length : Word) :
    Within [.iram s.p, .z] s (s.logicAtP op y length) :=
  .outcome (.read rfl (.write (.refl _ s) fun stored => .ok ((stored.z _).advance _)))

theorem testAtP_within (s : State) (y : Byte) (length : Word) : Within [.z] s (s.testAtP y length) :=
  .outcome (.read rfl (.ok (((Writes.refl _ s).z _).advance _)))

theorem compareAtP_within (s : State) (y : Byte) (length : Word) : Within [.c, .z] s (s.compareAtP y length) :=
  .outcome (.read rfl (.ok (((Writes.refl _ s).setFlags _ _).advance _)))

theorem arithA_within (s : State) (op : Byte → Byte → Bool → Alu8) (n : Byte) :
    Within [regPlace .a, .c, .z] s (s.arithA op n) :=
  .next ((((Writes.refl _ s).setReg .a _).setFlags _ _).advance _)

theorem logicA_within (s : State) (op : Byte → Byte → Byte) (n : Byte) :
    Within [regPlace .a, .z] s (s.logicA op n) :=
  .next ((((Writes.refl _ s).setReg .a _).z _).advance _)

/-- The byte at DP and, last, the scratch byte under the stack (41_arithmetic_logic.md rules R194 and R195). -/
theorem logicAtDp_within (s : State) (op : Byte → Byte → Byte) (n : Byte) :
    Within [.mem s.dp, .outputs, .z, .iram (s.r - 1), .draws] s (s.logicAtDp op n) :=
  have tested := (((Writes.refl _ s).memRead s.dp).memWrite s.dp _).z _
  .outcome (.write tested.drawByte fun stored => .ok (stored.advance _))

/-- ADB and SBB write both bytes of the operand and leave P at the high one (41_arithmetic_logic.md rule R180). -/
theorem wordAtP_within (s : State) (res : Word → Alu16) :
    Within [.iram s.p, .iram (s.p + 1), .p, .c, .z] s (outcome do
      let x ← s.wordAtP
      let t ← s.setWordAtP (res x).value
      .ok ((t.setFlags (res x).carry (res x).zero).advance 1)) := by
  have start : Writes [.iram s.p, .iram (s.p + 1), .p, .c, .z] s s := .refl _ s
  refine .outcome (.bind (mid := fun _ => True) (.read rfl (.read rfl (.ok trivial))) fun x _ => ?_)
  refine .bind (mid := Writes [.iram s.p, .iram (s.p + 1), .p, .c, .z] s) ?_ fun t stored => ?_
  · exact .write start fun first => .write first fun both => .ok (both.p _)
  · exact .ok ((stored.setFlags _ _).advance 1)

theorem exec_arith_within (i : Instr) (s : State) (fam : familyOf i = .arith) : Within (mayWrite i s) s (exec i s) := by
  have start {places : List Place} : Writes places s s := .refl _ s
  cases i with
  | adm => exact arithAtP_within s add8 _ _ _
  | sbm => exact arithAtP_within s sub8 _ _ _
  | adcm => exact arithAtP_within s add8 _ _ _
  | sbcm => exact arithAtP_within s sub8 _ _ _
  | adia n => exact arithA_within s add8 n
  | sbia n => exact arithA_within s sub8 n
  | adim n => exact arithAtP_within s add8 n _ _
  | sbim n => exact arithAtP_within s sub8 n _ _
  | adb => exact wordAtP_within s (add16 · s.ba)
  | sbb => exact wordAtP_within s (sub16 · s.ba)
  | anma => exact logicAtP_within s (· &&& ·) _ _
  | orma => exact logicAtP_within s (· ||| ·) _ _
  | tsma => exact testAtP_within s _ _
  | cpma => exact compareAtP_within s _ _
  | anim n => exact logicAtP_within s (· &&& ·) n _
  | orim n => exact logicAtP_within s (· ||| ·) n _
  | tsim n => exact testAtP_within s n _
  | cpim n => exact compareAtP_within s n _
  | ania n => exact logicA_within s (· &&& ·) n
  | oria n => exact logicA_within s (· ||| ·) n
  | tsia n => exact .next ((start.z _).advance _)
  | cpia n => exact .next ((start.setFlags _ _).advance _)
  | anid n => exact logicAtDp_within s (· &&& ·) n
  | orid n => exact logicAtDp_within s (· ||| ·) n
  | tsid n => exact .outcome (.write ((start.memRead _).z _).drawByte fun stored => .ok (stored.advance _))
  | sl => exact .next (((start.setReg .a _).setFlags _ _).advance _)
  | sr => exact .next (((start.setReg .a _).c _).advance _)
  | sc => exact .next ((start.setFlags _ _).advance _)
  | rc => exact .next ((start.setFlags _ _).advance _)
  | _ => cases fam

/-! ### Increments, decrements and pointer steps (42_inc_dec_pointer.md) -/

theorem countReg_within (s : State) (g : Reg) (op : Byte → Byte → Bool → Alu8) :
    Within [regPlace g, .c, .z, .q] s (s.countReg g op) :=
  .next (((((Writes.refl _ s).setReg g _).setFlags _ _).q _).advance _)

/-- The values INCP and DECP leave open are drawn (42_inc_dec_pointer.md rules R237 and R238). -/
theorem Writes.drawFlagsAndQ {places : List Place} {s u : State} (h : Writes places s u)
    (hereC : .c ∈ places := by simp [mayWrite]) (hereZ : .z ∈ places := by simp [mayWrite])
    (hereQ : .q ∈ places := by simp [mayWrite]) (drawn : .draws ∈ places := by simp [mayWrite]) :
    Writes places s u.drawFlagsAndQ := by
  rw [drawFlagsAndQ_eq]
  have flags := (h.c (Config.anyFlag u.draws) hereC).z (Config.anyFlag (u.draws + 1)) hereZ
  exact (flags.q (Config.anyPtr (u.draws + 2)) hereQ).tail (.draws (u.draws + 3) drawn)

/-- A pointer step writes its pair, DP and Q (42_inc_dec_pointer.md rule R239). -/
theorem Writes.stepPointer {places : List Place} {s u : State} (h : Writes places s u) (hi lo : Reg) (w : Word)
    (hereLo : regPlace lo ∈ places := by simp [mayWrite]) (hereHi : regPlace hi ∈ places := by simp [mayWrite])
    (hereDp : .dp ∈ places := by simp [mayWrite]) (hereQ : .q ∈ places := by simp [mayWrite]) :
    Writes places s (u.stepPointer hi lo w) :=
  ((h.setPair hi lo w hereLo hereHi).dp w hereDp).q _ hereQ

theorem exec_count_within (i : Instr) (s : State) (fam : familyOf i = .count) : Within (mayWrite i s) s (exec i s) := by
  have start {places : List Place} : Writes places s s := .refl _ s
  cases i with
  | inci => exact countReg_within s .i add8
  | deci => exact countReg_within s .i sub8
  | incj => exact countReg_within s .j add8
  | decj => exact countReg_within s .j sub8
  | inca => exact countReg_within s .a add8
  | deca => exact countReg_within s .a sub8
  | incb => exact countReg_within s .b add8
  | decb => exact countReg_within s .b sub8
  | inck => exact countReg_within s .k add8
  | deck => exact countReg_within s .k sub8
  | incl => exact countReg_within s .l add8
  | decl => exact countReg_within s .l sub8
  | incm => exact countReg_within s .m add8
  | decm => exact countReg_within s .m sub8
  | incn => exact countReg_within s .n add8
  | decn => exact countReg_within s .n sub8
  | incp => exact .next ((start.p _).drawFlagsAndQ.advance 1)
  | decp => exact .next ((start.p _).drawFlagsAndQ.advance 1)
  | ix => exact .next ((start.stepPointer .xh .xl _).advance 1)
  | dx => exact .next ((start.stepPointer .xh .xl _).advance 1)
  | iy => exact .next ((start.stepPointer .yh .yl _).advance 1)
  | dy => exact .next ((start.stepPointer .yh .yl _).advance 1)
  | ixl => exact .next ((((start.stepPointer .xh .xl _).memRead _).setReg .a _).advance 1)
  | dxl => exact .next ((((start.stepPointer .xh .xl _).memRead _).setReg .a _).advance 1)
  | iys => exact .next (((start.stepPointer .yh .yl _).memWrite _ _).advance 1)
  | dys => exact .next (((start.stepPointer .yh .yl _).memWrite _ _).advance 1)
  | _ => cases fam

/-! ### Jumps, LOOP, calls, RTN and the table jump (44_control_flow.md) -/

theorem Writes.jumpIf {places : List Place} {s u : State} (h : Writes places s u) (taken : Bool)
    (target length : Word) : Writes places s (u.jumpIf taken target length) := by
  cases taken with
  | true => exact h.jump target
  | false => exact h.advance length

/-- A push on the way: the two bytes under the stack top, then R (44_control_flow.md rule R320). -/
theorem Runs.pushWord {places : List Place} {s : State} {post : State → Prop} {w : Word}
    {f : State → Except Fault State} (rest : ∀ t, Writes places s t → Runs s (f t) post)
    (hereHi : .iram (s.r - 1) ∈ places := by simp [mayWrite]) (hereLo : .iram (s.r - 2) ∈ places := by simp [mayWrite])
    (hereR : .r ∈ places := by simp [mayWrite]) : Runs s (s.pushWord w >>= f) post :=
  .bind (mid := Writes places s)
    (.write (.refl _ s) (fun stored => .write stored (fun pushed => .ok (pushed.r _ hereR)) hereLo) hereHi) rest

theorem callTo_within (s : State) (target length : Word) :
    Within [.iram (s.r - 1), .iram (s.r - 2), .r] s (s.callTo target length) :=
  .outcome (.pushWord fun _ pushed => .ok (pushed.jump target))

/-- LOOP writes its counter on the stack, C and Z, and drops the counter at the end (44_control_flow.md rule R316). -/
theorem execLoop_within (n : Byte) (s : State) : Within [.iram s.r, .c, .z, .r] s (execLoop n s) := by
  have start : Writes [.iram s.r, .c, .z, .r] s s := .refl _ s
  refine .outcome (.read rfl (.write start fun stored => .ok ?_))
  have counted := stored.setFlags (sub8 (s.iramGet s.r) 1 false).carry (sub8 (s.iramGet s.r) 1 false).zero
  split
  · exact (counted.r _).advance 2
  · exact counted.jump _

theorem exec_control_within (i : Instr) (s : State) (fam : familyOf i = .control) (prepared : i = .dtj → s.tj ≠ none) :
    Within (mayWrite i s) s (exec i s) := by
  have start {places : List Place} : Writes places s s := .refl _ s
  cases i with
  | jrnzp n => exact .next (start.jumpIf _ _ _)
  | jrnzm n => exact .next (start.jumpIf _ _ _)
  | jrncp n => exact .next (start.jumpIf _ _ _)
  | jrncm n => exact .next (start.jumpIf _ _ _)
  | jrp n => exact .next (start.jumpIf _ _ _)
  | jrm n => exact .next (start.jumpIf _ _ _)
  | jrzp n => exact .next (start.jumpIf _ _ _)
  | jrzm n => exact .next (start.jumpIf _ _ _)
  | jrcp n => exact .next (start.jumpIf _ _ _)
  | jrcm n => exact .next (start.jumpIf _ _ _)
  | jp nm => exact .next (start.jumpIf _ _ _)
  | jpnz nm => exact .next (start.jumpIf _ _ _)
  | jpnc nm => exact .next (start.jumpIf _ _ _)
  | jpz nm => exact .next (start.jumpIf _ _ _)
  | jpc nm => exact .next (start.jumpIf _ _ _)
  | loop n => exact execLoop_within n s
  | call nm => exact callTo_within s nm 3
  | cal ln => exact callTo_within s (ln.setWidth 16) 2
  | rtn =>
    have popped : Writes (mayWrite .rtn s) s _ :=
      (start.r (s.r + 2)).jump (joinBytes (s.iramGet (s.r + 1)) (s.iramGet s.r))
    exact .outcome (.read rfl (.read rfl (.ok (popped.status (s.statusAfterReturn s.r)))))
  | ptj l nm => exact .outcome (.pushWord fun _ pushed => .ok ((pushed.tj _).advance 4))
  | dtj =>
    show Within _ s (execDtj s)
    unfold execDtj
    split
    · exact absurd ‹s.tj = none› (prepared rfl)
    · exact .next (((start.searchTable _ _ _).drawFlag.drawFlag.setFlags _ _).jump _)
  | _ => cases fam

/-! ### Ports, TEST, no-operations and waits (45_io_timing_misc.md) -/

theorem exec_port_within (i : Instr) (s : State) (fam : familyOf i = .port) : Within (mayWrite i s) s (exec i s) := by
  have start {places : List Place} : Writes places s s := .refl _ s
  cases i with
  | ina => exact .next ((((start.portIn .ia).setReg .a _).z _).advance 1)
  | inb => exact .next ((((start.portIn .ib).setReg .a _).z _).advance 1)
  | outa => exact .outcome (.read rfl (.ok ((start.portOut .ia _).advance 1)))
  | outb => exact .outcome (.read rfl (.ok ((start.portOut .ib _).advance 1)))
  | outf => exact .outcome (.read rfl (.ok ((start.portOut .f0 _).advance 1)))
  | outc => exact .outcome (.read rfl (.ok (((start.portOut .c _).status _).advance 1)))
  | test n => exact .next ((start.testIn.z _).advance 2)
  | nopw => exact .next (start.advance 1)
  | nopt => exact .next (start.advance 1)
  | wait n => exact .next (start.advance 2)
  | waiti =>
    have drawn : Writes (mayWrite .waiti s) s _ :=
      (start.drawPtr.drawFlag.p s.drawPtr.1).z s.drawPtr.2.drawFlag.1
    exact .next ((drawn.d 0xFF).advance 1)
  | _ => cases fam

end Sys2Proof.Machine
end

section
/-! SUPPORT. Blocks, DATA, BCD strings and digit shifts (43_block_bcd.md): their loops walk up or down from the
pointers they start at, so the bytes they write are those of the range the count register names (rule R260). -/

namespace Sys2Proof.Machine

/-! ### Walks -/

@[simp] theorem up_zero (a : Ptr) : up a 0 = a := BitVec.add_zero a

@[simp] theorem down_zero (a : Ptr) : down a 0 = a := BitVec.sub_zero a

@[simp] theorem above_zero (a : Word) : above a 0 = a := BitVec.add_zero a

theorem up_succ (a : Ptr) (k : Nat) : up a (k + 1) = up a k + 1 := by
  simp only [up, BitVec.ofNat_add, BitVec.add_assoc, BitVec.ofNat_eq_ofNat]

theorem down_succ (a : Ptr) (k : Nat) : down a (k + 1) = down a k - 1 := by
  simp only [down, BitVec.ofNat_add, sub_add_eq_sub_sub, BitVec.ofNat_eq_ofNat]

theorem above_succ (a : Word) (k : Nat) : above a (k + 1) = above a k + 1 := by
  simp only [above, BitVec.ofNat_add, BitVec.add_assoc, BitVec.ofNat_eq_ofNat]

/-- A pointer `k` bytes up a walk points into its range, and one step on is the next byte of the walk. -/
theorem cellsUp_step {a p : Ptr} {n : Byte} {k : Nat} (there : p = up a k) (le : k ≤ n.toNat) :
    .iram p ∈ cellsUp a n ∧ p + 1 = up a (k + 1) :=
  there ▸ ⟨List.mem_map.mpr ⟨k, List.mem_range.mpr (Nat.lt_succ_of_le le), rfl⟩, (up_succ a k).symm⟩

/-- The same down. -/
theorem cellsDown_step {a p : Ptr} {n : Byte} {k : Nat} (there : p = down a k) (le : k ≤ n.toNat) :
    .iram p ∈ cellsDown a n ∧ p - 1 = down a (k + 1) :=
  there ▸ ⟨List.mem_map.mpr ⟨k, List.mem_range.mpr (Nat.lt_succ_of_le le), rfl⟩, (down_succ a k).symm⟩

/-- The same up the 16-bit space. -/
theorem bytesUp_step {a w : Word} {n : Byte} {k : Nat} (there : w = above a k) (le : k ≤ n.toNat) :
    .mem w ∈ bytesUp a n ∧ w + 1 = above a (k + 1) :=
  there ▸ ⟨List.mem_map.mpr ⟨k, List.mem_range.mpr (Nat.lt_succ_of_le le), rfl⟩, (above_succ a k).symm⟩

/-- A loop started in `s` stands in `u` before its pass `k`: writes of the listed places led there, and the pointers
it walks with, `ptrs`, are where `way` says. -/
structure Walk {π : Type} (places : List Place) (s : State) (ptrs : State → π) (way : Nat → π) (k : Nat) (u : State) :
    Prop where
  writes : Writes places s u
  there : ptrs u = way k

/-- A block loop stays within its places if each pass, as far as the count register says, goes on along the
way (43_block_bcd.md rule R260). -/
theorem blockLoop_runs {π : Type} {places : List Place} {s : State} (count : Byte) {body : State → Except Fault State}
    (ptrs : State → π) (way : Nat → π) (counter : ∀ (u : State) (v : Byte), ptrs { u with d := v } = ptrs u)
    (start : ptrs s = way 0)
    (pass : ∀ k ≤ count.toNat, ∀ u, Walk places s ptrs way k u → Runs s (body u) (Walk places s ptrs way (k + 1)))
    (here : .d ∈ places := by simp [mayWrite]) :
    Runs s (s.blockLoop count body) (Writes places s) := by
  have counted (k : Nat) (le : k ≤ count.toNat) (u : State) (walk : Walk places s ptrs way k u) :
      Runs s (do let t ← body u; .ok t.countDown) (Walk places s ptrs way (k + 1)) :=
    .bind (pass k le u walk) fun t next => .ok ⟨next.writes.countDown here, (counter t _).trans next.there⟩
  have loop := Runs.loop (s := s) (Walk places s ptrs way) count.toNat counted
    (x := { s with d := count }) ⟨(Writes.refl places s).d count here, (counter s count).trans start⟩
  exact ⟨fun t e => (loop.answers t e).writes, loop.completes⟩

/-- The same for the whole block instruction. -/
theorem block_within {π : Type} {places : List Place} {s : State} (count : Byte) {body : State → Except Fault State}
    (ptrs : State → π) (way : Nat → π) (counter : ∀ (u : State) (v : Byte), ptrs { u with d := v } = ptrs u)
    (start : ptrs s = way 0)
    (pass : ∀ k ≤ count.toNat, ∀ u, Walk places s ptrs way k u → Runs s (body u) (Walk places s ptrs way (k + 1)))
    (here : .d ∈ places := by simp [mayWrite]) : Within places s (s.block count body) :=
  .outcome (.bind (blockLoop_runs count ptrs way counter start pass here) fun _ looped => .ok (looped.advance 1))

/-! ### Block moves, exchanges, fills and DATA (43_block_bcd.md rules R261 to R271) -/

/-- MVW and MVB. -/
theorem moveBlock_within (s : State) (n : Byte) :
    Within (.p :: .q :: .d :: cellsUp s.p n) s (s.block n moveByte) := by
  refine block_within n (·.p) (up s.p) (fun _ _ => rfl) (up_zero _).symm fun k le u ⟨writes, there⟩ => ?_
  obtain ⟨here, next⟩ := cellsUp_step there le
  exact .read writes.platform (.write writes (fun stored => .ok ⟨stored.pAndQ _ _, next⟩) (by simp [here]))

/-- EXW and EXB. -/
theorem exchangeBlock_within (s : State) (n : Byte) :
    Within (.p :: .q :: .d :: cellsUp s.p n ++ cellsUp s.q n) s (s.block n exchangeByte) := by
  refine block_within n (fun u => (u.p, u.q)) (fun k => (up s.p k, up s.q k)) (fun _ _ => rfl) (by simp)
    fun k le u ⟨writes, there⟩ => ?_
  obtain ⟨atP, atQ⟩ := Prod.mk.inj there
  obtain ⟨hereP, nextP⟩ := cellsUp_step atP le
  obtain ⟨hereQ, nextQ⟩ := cellsUp_step atQ le
  have next : (u.p + 1, u.q + 1) = (up s.p (k + 1), up s.q (k + 1)) := congrArg₂ Prod.mk nextP nextQ
  exact .read writes.platform (.read writes.platform (.write writes (fun first => .write first
    (fun both => .ok ⟨both.pAndQ _ _, next⟩) (by simp [hereQ])) (by simp [hereP])))

/-- MVWD and MVBD. -/
theorem moveExternalBlock_within (s : State) (n : Byte) :
    Within (.p :: .dp :: .d :: .draws :: cellsUp s.p n) s (s.block n moveExternalByte) := by
  refine block_within n (·.p) (up s.p) (fun _ _ => rfl) (up_zero _).symm fun k le u ⟨writes, there⟩ => ?_
  obtain ⟨here, next⟩ := cellsUp_step there le
  exact .write (writes.memRead u.dp) (fun stored => .ok ⟨stored.pAndDp _ _, by simpa using next⟩) (by simp [here])

/-- EXWD and EXBD. -/
theorem exchangeExternalBlock_within (s : State) (n : Byte) :
    Within (.p :: .dp :: .d :: .draws :: .outputs :: cellsUp s.p n ++ bytesUp s.dp n) s
      (s.block n exchangeExternalByte) := by
  refine block_within n (fun u => (u.p, u.dp)) (fun k => (up s.p k, above s.dp k)) (fun _ _ => rfl) (by simp)
    fun k le u ⟨writes, there⟩ => ?_
  obtain ⟨atP, atDp⟩ := Prod.mk.inj there
  obtain ⟨hereP, nextP⟩ := cellsUp_step atP le
  obtain ⟨hereDp, nextDp⟩ := bytesUp_step atDp le
  have next : (u.p + 1, u.dp + 1) = (up s.p (k + 1), above s.dp (k + 1)) :=
    congrArg₂ Prod.mk nextP nextDp
  have written := (writes.memRead u.dp).memWrite u.dp ((u.memRead u.dp).2.iramGet (u.memRead u.dp).2.p)
    (by simp [hereDp])
  exact .read (writes.memRead u.dp).platform (.write written
    (fun stored => .ok ⟨stored.pAndDp _ _, by simpa using next⟩) (by simp [hereP]))

/-- FILM. -/
theorem fillBlock_within (s : State) (n : Byte) :
    Within (.p :: .d :: cellsUp s.p n) s (s.block n fillByte) := by
  refine block_within n (·.p) (up s.p) (fun _ _ => rfl) (up_zero _).symm fun k le u ⟨writes, there⟩ => ?_
  obtain ⟨here, next⟩ := cellsUp_step there le
  exact .write writes (fun stored => .ok ⟨stored.p _, next⟩) (by simp [here])

/-- FILD. -/
theorem fillExternalBlock_within (s : State) (n : Byte) :
    Within (.dp :: .d :: .outputs :: bytesUp s.dp n) s (s.block n fillExternalByte) := by
  refine block_within n (·.dp) (above s.dp) (fun _ _ => rfl) (above_zero _).symm fun k le u ⟨writes, there⟩ => ?_
  obtain ⟨here, next⟩ := bytesUp_step there le
  exact .ok ⟨(writes.memWrite u.dp (u.reg .a) (by simp [here])).dp _, by simpa using next⟩

/-- DATA; its source pointer B:A may lie in the range it writes (43_block_bcd.md rule R271). -/
theorem execData_within (s : State) : Within (mayWrite .data s) s (execData s) := by
  refine .outcome (.bind (mid := Writes (mayWrite .data s) s) ?_ fun _ looped =>
    .ok ((looped.drawFlag.drawFlag.setFlags _ _).advance 1))
  refine blockLoop_runs (s.reg .i) (·.p) (up s.p) (fun _ _ => rfl) (up_zero _).symm fun k le u ⟨writes, there⟩ => ?_
  obtain ⟨here, next⟩ := cellsUp_step there le
  exact .write (writes.codeRead u.ba)
    (fun stored => .ok ⟨(stored.p _).setPair .b .a _, by simpa using next⟩) (by simp [mayWrite, here])

/-! ### BCD strings and digit shifts (43_block_bcd.md rules R280 to R286) -/

/-- A byte of decimal arithmetic reads nothing and draws where a digit is not decimal (43_block_bcd.md rule R280). -/
theorem Writes.bcdOp {places : List Place} {s u : State} (h : Writes places s u)
    (op : Byte → Byte → Bool → Byte × Bool) (x y : Byte) (cin : Bool) (here : .draws ∈ places := by simp [mayWrite]) :
    Writes places s (u.bcdOp op x y cin).2 := by
  rcases bcdOp_state u op x y cin with e | e <;> rw [e]
  · exact h
  · exact h.tail (.draws _ here)

@[simp] theorem bcdOp_p (s : State) (op : Byte → Byte → Bool → Byte × Bool) (x y : Byte) (cin : Bool) :
    (s.bcdOp op x y cin).2.p = s.p := by
  rcases bcdOp_state s op x y cin with e | e <;> rw [e]

/-- The byte of a BCD string written: the walk stands where it stood. -/
theorem writeByte_runs {places : List Place} {s : State} {way : Nat → Ptr} {k : Nat} {w : BcdRun}
    (walk : Walk places s (·.p) way k w.st) (op : Byte → Byte → Bool → Byte × Bool) (x y : Byte) (cin : Bool)
    (here : .iram w.st.p ∈ places) (drawn : .draws ∈ places) :
    Runs s (w.writeByte (w.st.bcdOp op x y cin)) (fun u => Walk places s (·.p) way k u.st) :=
  .write (walk.writes.bcdOp op x y cin drawn) (fun stored => .ok ⟨stored, by simpa using walk.there⟩)
    (by simpa using here)

/-- A BCD string loop stays within its places if each pass goes on one byte down (43_block_bcd.md rule R280). -/
theorem bcdLoop_runs {places : List Place} {s : State} {body : BcdRun → Except Fault BcdRun}
    (pass : ∀ k ≤ (s.reg .i).toNat, ∀ w : BcdRun, Walk places s (·.p) (down s.p) k w.st →
      Runs s (body w) (fun u => Walk places s (·.p) (down s.p) (k + 1) u.st))
    (here : .d ∈ places := by simp [mayWrite]) : Runs s (s.bcdLoop body) (fun w => Writes places s w.st) :=
  have start : Walk places s (·.p) (down s.p) 0 { s with d := s.reg .i } :=
    ⟨(Writes.refl places s).d _ here, (down_zero s.p).symm⟩
  have loop := Runs.loop (fun k (w : BcdRun) => Walk places s (·.p) (down s.p) k w.st) (s.reg .i).toNat pass start
  ⟨fun w e => (loop.answers w e).writes, loop.completes⟩

/-- ADN and SBN. -/
theorem bcdAddend_within (s : State) (op : Byte → Byte → Bool → Byte × Bool) :
    Within (.p :: .d :: .c :: .z :: .draws :: cellsDown s.p (s.reg .i)) s (s.bcdAddend op) := by
  refine .outcome (.bind (bcdLoop_runs fun k le w walk => ?_) fun w looped =>
    .ok ((looped.setFlags _ _).advance 1))
  have here := (cellsDown_step walk.there le).1
  exact .read walk.writes.platform (.bind (writeByte_runs walk op _ _ _ (by simp [here]) (by simp))
    fun u ⟨writes, there⟩ => .ok ⟨(writes.p _).countDown, (cellsDown_step there le).2⟩)

/-- ADW and SBW. -/
theorem bcdString_within (s : State) (op : Byte → Byte → Bool → Byte × Bool) :
    Within (.p :: .q :: .d :: .c :: .z :: .draws :: cellsDown s.p (s.reg .i)) s (s.bcdString op) := by
  refine .outcome (.bind (bcdLoop_runs fun k le w walk => ?_) fun w looped =>
    .ok (((looped.q w.st.extraQ).setFlags _ _).advance 1))
  have here := (cellsDown_step walk.there le).1
  exact .read walk.writes.platform (.read walk.writes.platform (.bind
    (writeByte_runs walk op _ _ _ (by simp [here]) (by simp))
    fun u ⟨writes, there⟩ => .ok ⟨(writes.pAndQ _ _).countDown, (cellsDown_step there le).2⟩))

/-- A digit shift stays within its places if each pass goes on along the way (43_block_bcd.md rules R285, R286). -/
theorem digitShift_within {places : List Place} {s : State} {body : DigitRun → Except Fault DigitRun}
    (way : Nat → Ptr) (start : s.p = way 0)
    (pass : ∀ k ≤ (s.reg .i).toNat, ∀ w : DigitRun, Walk places s (·.p) way k w.st →
      Runs s (body w) (fun u => Walk places s (·.p) way (k + 1) u.st))
    (here : .d ∈ places := by simp [mayWrite]) : Within places s (s.digitShift body) :=
  have first : Walk places s (·.p) way 0 { s with d := s.reg .i } := ⟨(Writes.refl places s).d _ here, start⟩
  .outcome (.bind (Runs.loop (fun k (w : DigitRun) => Walk places s (·.p) way k w.st) (s.reg .i).toNat pass first)
    fun _ looped => .ok (looped.writes.advance 1))

theorem execSrw_within (s : State) : Within (.p :: .d :: cellsUp s.p (s.reg .i)) s (execSrw s) := by
  refine digitShift_within (up s.p) (up_zero _).symm fun k le w ⟨writes, there⟩ => ?_
  obtain ⟨here, next⟩ := cellsUp_step there le
  exact .read writes.platform (.write writes (fun stored => .ok ⟨(stored.p _).countDown, next⟩) (by simp [here]))

theorem execSlw_within (s : State) : Within (.p :: .d :: cellsDown s.p (s.reg .i)) s (execSlw s) := by
  refine digitShift_within (down s.p) (down_zero _).symm fun k le w ⟨writes, there⟩ => ?_
  obtain ⟨here, next⟩ := cellsDown_step there le
  exact .read writes.platform (.write writes (fun stored => .ok ⟨(stored.p _).countDown, next⟩) (by simp [here]))

theorem exec_block_within (i : Instr) (s : State) (fam : familyOf i = .block) :
    Within (mayWrite i s) s (exec i s) := by
  cases i with
  | mvw => exact moveBlock_within s (s.reg .i)
  | mvb => exact moveBlock_within s (s.reg .j)
  | exw => exact exchangeBlock_within s (s.reg .i)
  | exb => exact exchangeBlock_within s (s.reg .j)
  | mvwd => exact moveExternalBlock_within s (s.reg .i)
  | mvbd => exact moveExternalBlock_within s (s.reg .j)
  | exwd => exact exchangeExternalBlock_within s (s.reg .i)
  | exbd => exact exchangeExternalBlock_within s (s.reg .j)
  | film => exact fillBlock_within s (s.reg .i)
  | fild => exact fillExternalBlock_within s (s.reg .i)
  | data => exact execData_within s
  | adn => exact bcdAddend_within s bcdAdd
  | sbn => exact bcdAddend_within s bcdSub
  | adw => exact bcdString_within s bcdAdd
  | sbw => exact bcdString_within s bcdSub
  | srw => exact execSrw_within s
  | slw => exact execSlw_within s
  | _ => cases fam

end Sys2Proof.Machine
end

section
/-! SUPPORT. The statements about the whole machine of 10_state.md: what an instruction may write (rule R43), where it
completes (rules R29 and R391), the invariant of a step (rules R42 and R346), and the stack (rules R32 and R325). -/

namespace Sys2Proof.Machine

/-! ### Every instruction -/

/-- What the spec does not describe stops (45_io_timing_misc.md rules R352 and R353). -/
theorem exec_of_not_wellFormed (i : Instr) (s : State) (undescribed : i.wellFormed = false) :
    ∃ f, exec i s = .fault f := by
  cases i <;> cases undescribed <;> exact ⟨_, rfl⟩

/-- What the spec describes is in one of the six families (30_encoding.md rule R101). -/
theorem familyOf_ne_undescribed (i : Instr) (described : i.wellFormed = true) : familyOf i ≠ .undescribed := by
  intro fam
  cases i <;> cases fam <;> cases described

/-- DTJ goes on only where TJ is set (44_control_flow.md rule R324). -/
theorem tj_set_of_dtj (s t : State) (ran : exec .dtj s = .next t) : s.tj ≠ none := by
  intro unset
  have stop : exec .dtj s = .fault (.tableJumpUnprepared s.pc) := by
    show execDtj s = _
    rw [execDtj, unset, raise]
  cases stop.symm.trans ran

/-- Every described instruction stays within what it may write and completes where all of internal RAM exists, DTJ
where TJ is set. -/
theorem exec_within (i : Instr) (s : State) (described : i.wellFormed = true) (prepared : i = .dtj → s.tj ≠ none) :
    Within (mayWrite i s) s (exec i s) := by
  cases fam : familyOf i with
  | load => exact exec_load_within i s fam
  | arith => exact exec_arith_within i s fam
  | count => exact exec_count_within i s fam
  | block => exact exec_block_within i s fam
  | control => exact exec_control_within i s fam prepared
  | port => exact exec_port_within i s fam
  | undescribed => exact absurd fam (familyOf_ne_undescribed i described)

/-- Whatever instruction gives a next state, writes at the places it may write lead there. -/
theorem exec_writes (i : Instr) (s t : State) (ran : exec i s = .next t) : Writes (mayWrite i s) s t := by
  cases described : i.wellFormed with
  | true => exact (exec_within i s described fun dtj => tj_set_of_dtj s t (dtj ▸ ran)).writes t ran
  | false =>
    obtain ⟨f, stop⟩ := exec_of_not_wellFormed i s described
    cases stop.symm.trans ran

/-! ### The frames -/

/-- Settles O49: the writes of each instruction of the family. -/
theorem loadsOnlyWriteWhatTheyMay : Obligations.LoadsOnlyWriteWhatTheyMay :=
  fun i s t fam ran => ((exec_load_within i s fam).writes t ran).onlyWrites

/-- Settles O50: the writes of each instruction of the family. -/
theorem arithmeticOnlyWritesWhatItMay : Obligations.ArithmeticOnlyWritesWhatItMay :=
  fun i s t fam ran => ((exec_arith_within i s fam).writes t ran).onlyWrites

/-- Settles O51: the writes of each instruction of the family. -/
theorem countsOnlyWriteWhatTheyMay : Obligations.CountsOnlyWriteWhatTheyMay :=
  fun i s t fam ran => ((exec_count_within i s fam).writes t ran).onlyWrites

/-- Settles O52: the writes of each instruction of the family, its loops walking over the listed range. -/
theorem blocksOnlyWriteWhatTheyMay : Obligations.BlocksOnlyWriteWhatTheyMay :=
  fun i s t fam ran => ((exec_block_within i s fam).writes t ran).onlyWrites

/-- Settles O53: the writes of each instruction of the family, DTJ having found TJ set. -/
theorem controlOnlyWritesWhatItMay : Obligations.ControlOnlyWritesWhatItMay := by
  intro i s t fam ran
  have prepared (dtj : i = .dtj) : s.tj ≠ none := tj_set_of_dtj s t (dtj ▸ ran)
  exact ((exec_control_within i s fam prepared).writes t ran).onlyWrites

/-- Settles O54: the writes of each instruction of the family. -/
theorem portsOnlyWriteWhatTheyMay : Obligations.PortsOnlyWriteWhatTheyMay :=
  fun i s t fam ran => ((exec_port_within i s fam).writes t ran).onlyWrites

/-- Settles O56: the other half of the judgement the frames come from. -/
theorem everyDescribedInstructionCompletes : Obligations.EveryDescribedInstructionCompletes :=
  fun i s described full prepared => (exec_within i s described prepared).completes full

/-! ### Steps -/

/-- A state that is not running does not step (10_state.md rule R42). -/
theorem step_not_running (s : State) (stands : s.status ≠ .running) : step s = .fault (.notRunning s.status) := by
  unfold step
  cases status : s.status with
  | running => exact absurd status stands
  | returned => rfl
  | stopped reason => rfl

/-- Settles O7: the other two values of the status raise it. -/
theorem onlyRunningStatesStep : Obligations.OnlyRunningStatesStep := step_not_running

/-- A step is the execution of the instruction fetched, in a running state. -/
theorem step_eq_next (s t : State) (stepped : step s = .next t) :
    s.status = .running ∧ exec (fetch s).1 (fetch s).2 = .next t := by
  by_cases running : s.status = .running
  · exact ⟨running, by simpa only [step, running] using stepped⟩
  · cases (step_not_running s running).symm.trans stepped

/-! ### The invariant -/

/-- Only RTN and OUTC may write the status (10_state.md rule R42). -/
theorem status_not_mem_mayWrite (i : Instr) (s : State) (notRtn : i ≠ .rtn) (notOutc : i ≠ .outc) :
    .status ∉ mayWrite i s := by
  cases i with
  | rtn => exact absurd rfl notRtn
  | outc => exact absurd rfl notOutc
  | _ => simp [mayWrite, regPlace, cellsUp, cellsDown, bytesUp]

/-- A run that has not been stopped agrees with the control port whatever it holds. -/
theorem statusAgrees_of_not_stopped (t : State) (going : ∀ reason, t.status ≠ .stopped reason) : statusAgrees t := by
  unfold statusAgrees
  cases status : t.status with
  | stopped reason => exact absurd status (going reason)
  | running => trivial
  | returned => trivial

/-- The stop OUTC brings about agrees with the byte it puts out: OFF before HLT (45_io_timing_misc.md rule R346). -/
theorem statusAgrees_afterControl (t : State) (v : Byte) (latch : t.outC = v)
    (status : t.status = statusAfterControl .running v) : statusAgrees t := by
  unfold statusAgrees
  rw [status, statusAfterControl, latch]
  cases off : controlOff v with
  | true => rfl
  | false =>
    cases hlt : controlHlt v with
    | true => exact ⟨rfl, rfl⟩
    | false => trivial

/-- OUTC leaves the byte it read on the control port and the status it stands for. -/
theorem execOutc_eq_next (s t : State) (ran : execOutc s = .next t) :
    ∃ v, t.outC = v ∧ t.status = statusAfterControl s.status v := by
  obtain ⟨v, _, e⟩ := (bind_eq_ok _ _ _).mp ((outcome_eq_next _ t).mp ran)
  cases e
  exact ⟨v, rfl, rfl⟩

/-- RTN goes on, or ends the run as returned (70_reset_and_hazards.md rule R415). -/
theorem execRtn_status (s t : State) (ran : execRtn s = .next t) : t.status = .returned ∨ t.status = s.status := by
  obtain ⟨_, _, rest⟩ := (bind_eq_ok _ _ _).mp ((outcome_eq_next _ t).mp ran)
  obtain ⟨_, _, e⟩ := (bind_eq_ok _ _ _).mp rest
  cases e
  simp only [State.statusAfterReturn]
  split
  · exact .inl rfl
  · exact .inr rfl

/-- An instruction executed in a running state leaves a status that agrees with the control port. -/
theorem exec_statusAgrees (i : Instr) (s t : State) (running : s.status = .running) (ran : exec i s = .next t) :
    statusAgrees t := by
  by_cases outc : i = .outc
  · subst outc
    obtain ⟨v, latch, status⟩ := execOutc_eq_next s t ran
    exact statusAgrees_afterControl t v latch (running ▸ status)
  · have kept : t.status = .returned ∨ t.status = s.status := by
      by_cases rtn : i = .rtn
      · subst rtn
        exact execRtn_status s t ran
      · exact .inr ((exec_writes i s t ran).samePlace .status (status_not_mem_mayWrite i s rtn outc))
    exact statusAgrees_of_not_stopped t fun reason stopped => by simp [stopped, running] at kept

/-- Settles O59: memory keeps its form through the writes of the fetch and of the instruction, and the status is
that of a run that was running when the instruction was executed. -/
theorem everyStepKeepsTheInvariant : Obligations.EveryStepKeepsTheInvariant := by
  rintro s t ⟨wf, _⟩ stepped
  obtain ⟨running, ran⟩ := step_eq_next s t stepped
  have fetched := fetch_writes s
  have stillRunning : (fetch s).2.status = .running := (fetched.samePlace .status (by simp)).trans running
  exact ⟨(exec_writes _ _ t ran).mem_wf (fetched.mem_wf wf), exec_statusAgrees _ _ t stillRunning ran⟩

/-! ### The stack -/

/-- PUSH puts A one below the stack top, where R then stands (40_load_transfer.md rule R147). -/
theorem execPush_eq_next (s t : State) (ran : execPush s = .next t) :
    s.implemented (s.r - 1) = true ∧
      t = ({ s with r := s.r - 1 }.iramSet (s.r - 1) (s.reg .a)).advance 1 := by
  obtain ⟨u, stored, e⟩ := (bind_eq_ok _ _ _).mp ((outcome_eq_next _ t).mp ran)
  obtain ⟨present, rfl⟩ := (writeIram_eq_ok _ _ _ _).mp stored
  cases e
  exact ⟨present, rfl⟩

/-- POP where the byte at R exists (40_load_transfer.md rule R148). -/
theorem execPop_present (s : State) (present : s.implemented s.r = true) :
    execPop s = .next ({ s.setReg .a (s.iramGet s.r) with r := s.r + 1 }.advance 1) := by
  rw [execPop, readIram_implemented s s.r present, ok_bind, outcome_ok]

/-- CALL and CAL push the address after them and jump (44_control_flow.md rules R320 and R321). -/
theorem callTo_eq_next (s t : State) (target length : Word) (ran : s.callTo target length = .next t) :
    s.implemented (s.r - 1) = true ∧ s.implemented (s.r - 2) = true ∧
      t = { (s.iramSet (s.r - 1) (hiByte (s.pc + length))).iramSet (s.r - 2) (loByte (s.pc + length)) with
            r := s.r - 2, pc := target } := by
  obtain ⟨u, pushed, e⟩ := (bind_eq_ok _ _ _).mp ((outcome_eq_next _ t).mp ran)
  obtain ⟨high, low, rfl⟩ := (pushWord_eq_ok _ _ _).mp pushed
  cases e
  exact ⟨high, low, rfl⟩

/-- RTN where both bytes of the address exist (44_control_flow.md rule R322). -/
theorem execRtn_present (s : State) (low : s.implemented s.r = true) (high : s.implemented (s.r + 1) = true) :
    execRtn s = .next { s with r := s.r + 2, pc := joinBytes (s.iramGet (s.r + 1)) (s.iramGet s.r),
                               status := s.statusAfterReturn s.r } := by
  rw [execRtn, readIram_implemented s _ low, ok_bind, readIram_implemented s _ high, ok_bind, outcome_ok]

/-- POP undoes PUSH (10_state.md rule R32). -/
theorem pop_undoes_push (s t : State) (ran : execPush s = .next t) :
    ∃ u, execPop t = .next u ∧ u.r = s.r ∧ u.reg .a = s.reg .a ∧ u.pc = s.pc + 2 := by
  obtain ⟨present, rfl⟩ := execPush_eq_next s t ran
  refine ⟨_, execPop_present _ present, ?_, ?_, ?_⟩
  · exact BitVec.sub_add_cancel s.r 1
  · show (State.setReg _ .a _).reg .a = s.reg .a
    rw [reg_setReg, if_pos rfl]
    show (State.iramSet _ (s.r - 1) (s.reg .a)).iramGet (s.r - 1) = s.reg .a
    rw [iramGet_iramSet, if_pos rfl]
  · exact BitVec.add_assoc s.pc 1 1

/-- RTN undoes a call, where the host's own return address does not stand at the pushed one (44_control_flow.md rule
R325). -/
theorem rtn_undoes_call (s t : State) (target length : Word) (ran : s.callTo target length = .next t)
    (notHost : s.hostR ≠ some (s.r - 2)) :
    ∃ u, execRtn t = .next u ∧ u.r = s.r ∧ u.pc = s.pc + length ∧ u.status = s.status ∧ FlagsKept s u := by
  obtain ⟨high, low, rfl⟩ := callTo_eq_next s t target length ran
  have next : s.r - 2 + 1 = s.r - 1 := by bv_omega
  have other : s.r - 2 ≠ s.r - 1 := by bv_omega
  refine ⟨_, execRtn_present _ low (next ▸ high), ?_, ?_, ?_, rfl, rfl⟩
  · exact BitVec.sub_add_cancel s.r 2
  · show joinBytes (State.iramGet (State.iramSet _ _ _) (s.r - 2 + 1))
      (State.iramGet (State.iramSet _ _ _) (s.r - 2)) = _
    rw [next, iramGet_iramSet, iramGet_iramSet, iramGet_iramSet, if_neg other, if_pos rfl, if_pos rfl,
      joinBytes_hiByte_loByte]
  · exact if_neg notHost

/-- Settles O17: CALL and CAL are one push, so one lemma serves both. -/
theorem stackUndoesItself : Obligations.StackUndoesItself := fun s t nm ln =>
  ⟨pop_undoes_push s t, rtn_undoes_call s t nm 3, rtn_undoes_call s t (ln.setWidth 16) 2⟩

end Sys2Proof.Machine
end

section
/-! SUPPORT. The accesses to the 16-bit spaces by what answers at the address (20_memory.md rules R62 to R65), and what
a read gives after a write (rules R61, R69 and R71). -/

namespace Sys2Proof.Machine

/-! ### What answers -/

/-- `MEMMAP` places no internal ROM (20_memory.md rule R74). -/
theorem backingOfKind_ne_internalRom (kind : RegionKind) : backingOfKind kind ≠ .internalRom := by
  cases kind <;> exact nofun

/-- The internal ROM answers below &2000 and nowhere else (20_memory.md rule R74). -/
theorem backing_eq_internalRom (s : State) (a : Word) : s.backing a = .internalRom ↔ a.toNat < 0x2000 := by
  unfold State.backing
  split
  · exact ⟨fun _ => ‹a < 0x2000›, fun _ => rfl⟩
  · refine ⟨fun mapped => ?_, fun below => absurd below ‹¬ a < 0x2000›⟩
    split at mapped
    · exact absurd mapped (backingOfKind_ne_internalRom _)
    · cases mapped

/-- From &2000 up the first region of `MEMMAP` that covers the address says what answers (20_memory.md rules R63 and
R64). -/
theorem backing_of_find {s : State} {a : Word} {g : Region} (above : 0x2000 ≤ a.toNat)
    (found : s.platform.memmap.find? (regionCovers · a) = some g) : s.backing a = backingOfKind g.kind := by
  have outside : ¬ a < 0x2000 := Nat.not_lt.mpr above
  simp only [State.backing, if_neg outside, found]

/-! ### The three accesses -/

section

variable {s : State} {a : Word}

/-- The internal-ROM window as data: the address's high byte (20_memory.md rule R65). -/
theorem memRead_internalRom (answers : s.backing a = .internalRom) : s.memRead a = (hiByte a, s) := by
  simp only [State.memRead, answers]

/-- A data read where memory holds bytes (20_memory.md rule R63). -/
theorem memRead_held (answers : s.backing a = .ram ∨ s.backing a = .rom) : s.memRead a = (s.storedByte a, s) := by
  rcases answers with answers | answers <;> simp only [State.memRead, answers]

/-- A data read where a device answers or nothing does (20_memory.md rule R63). -/
theorem memRead_open (answers : s.backing a = .device ∨ s.backing a = .nothing) : s.memRead a = s.drawByte := by
  rcases answers with answers | answers <;> simp only [State.memRead, answers]

/-- A program-space read where memory holds bytes, the internal ROM among them (20_memory.md rule R62). -/
theorem codeRead_held (answers : s.backing a = .internalRom ∨ s.backing a = .ram ∨ s.backing a = .rom) :
    s.codeRead a = (s.storedByte a, s) := by
  rcases answers with answers | answers | answers <;> simp only [State.codeRead, answers]

/-- A program-space read where a device answers or nothing does (20_memory.md rule R62). -/
theorem codeRead_open (answers : s.backing a = .device ∨ s.backing a = .nothing) : s.codeRead a = s.drawByte := by
  rcases answers with answers | answers <;> simp only [State.codeRead, answers]

/-- A data write to RAM (20_memory.md rule R64). -/
theorem memWrite_ram (answers : s.backing a = .ram) (v : Byte) : s.memWrite a v = s.storeByte a v := by
  simp only [State.memWrite, answers]

/-- A data write to a device (20_memory.md rule R64). -/
theorem memWrite_device (answers : s.backing a = .device) (v : Byte) :
    s.memWrite a v = { s with outputs := s.outputs ++ [OutEvent.device a v] } := by
  simp only [State.memWrite, answers]

/-- A data write that is lost (20_memory.md rule R64). -/
theorem memWrite_lost (answers : s.backing a = .internalRom ∨ s.backing a = .rom ∨ s.backing a = .nothing) (v : Byte) :
    s.memWrite a v = s := by
  rcases answers with answers | answers | answers <;> simp only [State.memWrite, answers]

/-! ### What memory holds after a data write -/

/-- RAM holds the byte last written (20_memory.md rule R71). -/
theorem storedByte_memWrite_same (answers : s.backing a = .ram) (v : Byte) : (s.memWrite a v).storedByte a = v := by
  rw [memWrite_ram answers, storedByte_storeByte, if_pos rfl]

/-- A data write leaves every other address alone, whatever answers (20_memory.md rule R71). -/
theorem storedByte_memWrite_other {b : Word} (other : b ≠ a) (v : Byte) :
    (s.memWrite a v).storedByte b = s.storedByte b :=
  memWrite_keeps s a v (·.storedByte b) ((storedByte_storeByte s a b v).trans (if_neg other.symm)) fun _ => rfl

end

/-! ### What a read depends on -/

/-- The byte a data read gives is decided by what answers, the byte held there and the draws so far. -/
theorem memRead_value_congr {s t : State} {a : Word} (answers : t.backing a = s.backing a)
    (held : t.storedByte a = s.storedByte a) (draws : t.draws = s.draws) : (t.memRead a).1 = (s.memRead a).1 := by
  simp only [State.memRead, answers]
  cases s.backing a with
  | internalRom => rfl
  | ram => exact held
  | rom => exact held
  | device => exact congrArg Config.anyByte draws
  | nothing => exact congrArg Config.anyByte draws

/-- The same for a program-space read. -/
theorem codeRead_value_congr {s t : State} {a : Word} (answers : t.backing a = s.backing a)
    (held : t.storedByte a = s.storedByte a) (draws : t.draws = s.draws) : (t.codeRead a).1 = (s.codeRead a).1 := by
  simp only [State.codeRead, answers]
  cases s.backing a with
  | internalRom => exact held
  | ram => exact held
  | rom => exact held
  | device => exact congrArg Config.anyByte draws
  | nothing => exact congrArg Config.anyByte draws

/-- One cell of internal RAM read after another was written (20_memory.md rule R61). -/
theorem readIram_iramSet_other {s : State} {x y : Ptr} (other : y ≠ x) (v : Byte) :
    (s.iramSet x v).readIram y = s.readIram y := by
  simp only [State.readIram, implemented_iramSet, iramGet_iramSet, if_neg other.symm]

/-! ### The statements -/

/-- Settles O15: each access where each of the five answers, and where the internal ROM's window ends. -/
theorem accessesByWhatAnswers : Obligations.AccessesByWhatAnswers := by
  intro s a v
  refine ⟨backing_eq_internalRom s a, fun answers => ?internalRom, fun answers => ?ram, fun answers => ?rom,
    fun answers => ?device, fun answers => ?nothing⟩
  case internalRom => exact ⟨memRead_internalRom answers, codeRead_held (.inl answers), memWrite_lost (.inl answers) v⟩
  case ram =>
    exact ⟨memRead_held (.inl answers), codeRead_held (.inr (.inl answers)), memWrite_ram answers v,
      storedByte_memWrite_same answers v⟩
  case rom =>
    exact ⟨memRead_held (.inr answers), codeRead_held (.inr (.inr answers)), memWrite_lost (.inr (.inl answers)) v⟩
  case device => exact ⟨memRead_open (.inl answers), codeRead_open (.inl answers), memWrite_device answers v⟩
  case nothing =>
    exact ⟨memRead_open (.inr answers), codeRead_open (.inr answers), memWrite_lost (.inr (.inr answers)) v⟩

/-- Settles O16: a write changes neither what answers nor the draws, so a read after it gives what memory holds. -/
theorem loadsReturnTheLastStore : Obligations.LoadsReturnTheLastStore := by
  intro s a b v x y
  refine ⟨fun answers => ?same, fun other => ?other, fun present => ?internal⟩
  case same =>
    have still : (s.memWrite a v).backing a = .ram := (backing_memWrite s a v a).trans answers
    rw [memRead_held (.inl still), codeRead_held (.inr (.inl still))]
    exact ⟨storedByte_memWrite_same answers v, storedByte_memWrite_same answers v⟩
  case other =>
    have held := storedByte_memWrite_other (s := s) other v
    exact ⟨memRead_value_congr (backing_memWrite s a v b) held (memWrite_draws s a v),
      codeRead_value_congr (backing_memWrite s a v b) held (memWrite_draws s a v)⟩
  case internal =>
    refine ⟨_, writeIram_implemented s x v present, ?_, fun other => readIram_iramSet_other other v⟩
    rw [readIram_implemented (s.iramSet x v) x present, iramGet_iramSet, if_pos rfl]

end Sys2Proof.Machine
end

section
/-! SUPPORT. What no step changes (20_memory.md rule R64, 10_state.md rule R29, 45_io_timing_misc.md rule R340): a
relation every single write is in, and so every step. -/

namespace Sys2Proof.Machine

/-- From `s` to `t` the platform is the same, what does not exist of internal RAM and what is not RAM holds what it
held, the outputs grew at their end, and the supplied inputs were taken from their front. -/
structure Untouched (s t : State) : Prop where
  platform : t.platform = s.platform
  absent : ∀ a, s.implemented a = false → t.iramGet a = s.iramGet a
  notRam : ∀ a, s.backing a ≠ .ram → t.storedByte a = s.storedByte a
  outputs : s.outputs <+: t.outputs
  inIA : t.inIA <:+ s.inIA
  inIB : t.inIB <:+ s.inIB
  inTest : t.inTest <:+ s.inTest

namespace Untouched

theorem refl (s : State) : Untouched s s :=
  ⟨rfl, fun _ _ => rfl, fun _ _ => rfl, ⟨[], List.append_nil _⟩, ⟨[], rfl⟩, ⟨[], rfl⟩, ⟨[], rfl⟩⟩

/-- What exists and what is RAM is the same on both ways, since the platform is. -/
theorem trans (s t u : State) (first : Untouched s t) (second : Untouched t u) : Untouched s u where
  platform := second.platform.trans first.platform
  absent a missing :=
    (second.absent a ((implemented_congr s t a first.platform).trans missing)).trans (first.absent a missing)
  notRam a other :=
    (second.notRam a fun ram => other ((backing_congr s t a first.platform).symm.trans ram)).trans
      (first.notRam a other)
  outputs := first.outputs.trans second.outputs
  inIA := second.inIA.trans first.inIA
  inIB := second.inIB.trans first.inIB
  inTest := second.inTest.trans first.inTest

end Untouched

/-- A driven port is told at the end of the outputs (45_io_timing_misc.md rule R340). -/
theorem portOut_outputs (s : State) (o : OutPort) (v : Byte) :
    (s.portOut o v).outputs = s.outputs ++ [OutEvent.port o v] := by
  cases o <;> rfl

/-- A single write leaves all of that alone: the one cell it may set exists, and the one byte it may store is RAM. -/
theorem Write.untouched {places : List Place} {s t : State} (w : Write places s t) : Untouched s t := by
  have same := Untouched.refl s
  cases w with
  | cell a v present _ =>
    refine { same with absent := fun b missing => ?_ }
    have other : a ≠ b := fun eq => by simp [← eq, present] at missing
    exact (iramGet_iramSet s a b v).trans (if_neg other)
  | byte a v ram _ =>
    refine { same with notRam := fun b notRam => ?_ }
    have other : a ≠ b := fun eq => notRam (eq ▸ ram)
    exact (storedByte_storeByte s a b v).trans (if_neg other)
  | drive o v _ _ =>
    have told : s.outputs <+: (s.portOut o v).outputs := ⟨_, (portOut_outputs s o v).symm⟩
    cases o <;> exact { same with outputs := told }
  | tell e _ => exact { same with outputs := ⟨[e], rfl⟩ }
  | takeIA v rest front _ => exact { same with inIA := ⟨[v], front.symm⟩ }
  | takeIB v rest front _ => exact { same with inIB := ⟨[v], front.symm⟩ }
  | takeTest v rest front _ => exact { same with inTest := ⟨[v], front.symm⟩ }
  | _ => exact { same with }

/-- Nor do writes one after another. -/
theorem Writes.untouched {places : List Place} {s t : State} (h : Writes places s t) : Untouched s t :=
  h.keeps Untouched Untouched.refl Untouched.trans fun _ _ w => w.untouched

/-- Settles O57: a step is the writes of the fetch, then those of the instruction. -/
theorem whatNoStepChanges : Obligations.WhatNoStepChanges := by
  intro s t stepped
  obtain ⟨_, ran⟩ := step_eq_next s t stepped
  have fetched := fetch_writes s
  have executed := exec_writes _ _ t ran
  obtain ⟨platform, absent, notRam, ⟨more, told⟩, ⟨ia, takenIA⟩, ⟨ib, takenIB⟩, ⟨test, takenTest⟩⟩ :=
    Untouched.trans _ _ _ fetched.untouched executed.untouched
  exact ⟨platform, executed.hostR.trans fetched.hostR, absent, notRam, ⟨more, told.symm⟩, ⟨ia, takenIA.symm⟩,
    ⟨ib, takenIB.symm⟩, ⟨test, takenTest.symm⟩⟩

end Sys2Proof.Machine
end

section
/-! SUPPORT. The encoding as the fetch sees it: its first byte asks for the operands that follow it, and with them
decodes to the instruction (30_encoding.md rules R90 to R100). -/

namespace Sys2Proof

/-- The entry of a first byte stands in the column of its high digit (30_encoding.md rule R100). -/
theorem opcodeEntry_eq (b0 : Byte) (hi : BitVec 4) (column : hiNibble b0 = hi) :
    opcodeEntry b0 = (opcodeMap[hi.toNat]'hi.isLt)[(loNibble b0).toNat]'(loNibble b0).isLt := by
  subst column
  rfl

/-- The first bytes &80 to &BF are LP's (30_encoding.md rule R92). -/
theorem opcodeEntry_lp (l : BitVec 6) : opcodeEntry (0b10#2 ++ l) = .lp := by
  have column : ∀ l : BitVec 6, hiNibble (0b10#2 ++ l) = 8 ∨ hiNibble (0b10#2 ++ l) = 9 ∨
      hiNibble (0b10#2 ++ l) = 10 ∨ hiNibble (0b10#2 ++ l) = 11 := by decide
  rcases column l with h | h | h | h <;> rw [opcodeEntry_eq _ _ h] <;> exact Vector.getElem_replicate _

/-- The first bytes &E0 to &FF are CAL's (30_encoding.md rule R94). -/
theorem opcodeEntry_cal (h : BitVec 5) : opcodeEntry (0b111#3 ++ h) = .cal := by
  have column : ∀ h : BitVec 5, hiNibble (0b111#3 ++ h) = 14 ∨ hiNibble (0b111#3 ++ h) = 15 := by decide
  rcases column h with e | e <;> rw [opcodeEntry_eq _ _ e] <;> exact Vector.getElem_replicate _

/-- The bytes `b0 :: operands` are an instruction's encoding, as the fetch takes them apart. -/
structure Encodes (i : Instr) (b0 : Byte) (operands : List Byte) : Prop where
  bytes : encode i = b0 :: operands
  count : operandCount b0 = operands.length
  decodes : decodeOpcode b0 operands = i

/-- LP's operand stands in its first byte (30_encoding.md rule R92). -/
theorem encodes_lp (l : BitVec 6) : Encodes (.lp l) (0b10#2 ++ l) [] where
  bytes := rfl
  count := by rw [operandCount, opcodeEntry_lp]; rfl
  decodes := by
    rw [decodeOpcode, opcodeEntry_lp]
    exact congrArg Instr.lp BitVec.extractLsb'_append_eq_right

/-- CAL's target is cut in two, its high bits in the first byte (30_encoding.md rule R94). -/
theorem encodes_cal (ln : BitVec 13) :
    Encodes (.cal ln) (0b111#3 ++ ln.extractLsb' 8 5) [ln.extractLsb' 0 8] where
  bytes := rfl
  count := by rw [operandCount, opcodeEntry_cal]; rfl
  decodes := by
    rw [decodeOpcode, opcodeEntry_cal]
    have target : (0b111#3 ++ ln.extractLsb' 8 5).extractLsb' 0 5 ++ ln.extractLsb' 0 8 = ln := by
      rw [BitVec.extractLsb'_append_eq_right]
      exact BitVec.extractLsb'_append_extractLsb'
    exact congrArg Instr.cal target

/-- Every encoding is of that form (30_encoding.md rules R90 to R100): the two above, the 16-bit operands, high byte
first, and the rest, whose bytes stand in the encoding as they are. -/
theorem exists_encodes (i : Instr) : ∃ b0 operands, Encodes i b0 operands := by
  cases i with
  | lp l => exact ⟨_, _, encodes_lp l⟩
  | cal ln => exact ⟨_, _, encodes_cal ln⟩
  | lidp nm => exact ⟨_, [_, _], rfl, rfl, congrArg Instr.lidp (joinBytes_hiByte_loByte nm)⟩
  | jp nm => exact ⟨_, [_, _], rfl, rfl, congrArg Instr.jp (joinBytes_hiByte_loByte nm)⟩
  | jpnz nm => exact ⟨_, [_, _], rfl, rfl, congrArg Instr.jpnz (joinBytes_hiByte_loByte nm)⟩
  | jpnc nm => exact ⟨_, [_, _], rfl, rfl, congrArg Instr.jpnc (joinBytes_hiByte_loByte nm)⟩
  | jpz nm => exact ⟨_, [_, _], rfl, rfl, congrArg Instr.jpz (joinBytes_hiByte_loByte nm)⟩
  | jpc nm => exact ⟨_, [_, _], rfl, rfl, congrArg Instr.jpc (joinBytes_hiByte_loByte nm)⟩
  | call nm => exact ⟨_, [_, _], rfl, rfl, congrArg Instr.call (joinBytes_hiByte_loByte nm)⟩
  | ptj l nm => exact ⟨_, [_, _, _], rfl, rfl, congrArg (Instr.ptj l) (joinBytes_hiByte_loByte nm)⟩
  | _ => exact ⟨_, _, rfl, rfl, rfl⟩

/-- No format has more than three operand bytes (30_encoding.md rule R90). -/
theorem operandCount_le (b0 : Byte) : operandCount b0 ≤ 3 := by
  unfold operandCount
  cases opcodeEntry b0 <;> simp only [OpcodeEntry.operandCount] <;> omega

/-- The longest instruction has four bytes (30_encoding.md rule R90). -/
theorem instrLength_le (i : Instr) : instrLength i ≤ 4 := by
  obtain ⟨b0, operands, enc⟩ := exists_encodes i
  rw [instrLength, enc.bytes, List.length_cons, ← enc.count]
  have := operandCount_le b0
  omega

end Sys2Proof
end

section
/-! SUPPORT. What the host pokes into RAM the next fetch finds (20_memory.md rules R73 and R77). -/

namespace Sys2Proof.Machine

/-! ### Bytes in program space -/

/-- Program-space reads from `a` up give these bytes and leave the state (20_memory.md rule R62). -/
def State.gives (s : State) : Word → List Byte → Prop
  | _, [] => True
  | a, v :: rest => s.codeRead a = (v, s) ∧ s.gives (a + 1) rest

/-- The operand bytes are fetched as they are given (30_encoding.md rule R107). -/
theorem fetchBytes_of_gives {s : State} {a : Word} {bytes : List Byte} (given : s.gives a bytes) :
    fetchBytes bytes.length a s = (bytes, s) := by
  induction bytes generalizing a with
  | nil => rfl
  | cons v rest ih =>
    obtain ⟨here, further⟩ := given
    simp only [List.length_cons, fetchBytes, here, ih further]

/-- Where program space gives an instruction's encoding at pc, the fetch gives the instruction (30_encoding.md rule
R107). -/
theorem fetch_of_gives {s : State} {i : Instr} (given : s.gives s.pc (encode i)) : fetch s = (i, s) := by
  obtain ⟨b0, operands, enc⟩ := exists_encodes i
  rw [enc.bytes] at given
  obtain ⟨first, further⟩ := given
  simp only [fetch, first, enc.count, fetchBytes_of_gives further, enc.decodes]

/-- A running machine executes what it fetches (10_state.md rule R42). -/
theorem step_running {s : State} (running : s.status = .running) : step s = exec (fetch s).1 (fetch s).2 := by
  simp only [step, running]

/-! ### POKE -/

/-- What a data write keeps, a POKE keeps. -/
theorem poke_keeps {β : Type} (view : State → β) (each : ∀ s a v, view (State.memWrite s a v) = view s) (s : State)
    (a : Word) (bytes : List Byte) : view (s.poke a bytes) = view s := by
  induction bytes generalizing s a with
  | nil => rfl
  | cons v rest ih => exact (ih _ _).trans (each s a v)

theorem backing_poke (s : State) (a : Word) (bytes : List Byte) (b : Word) : (s.poke a bytes).backing b = s.backing b :=
  poke_keeps (·.backing b) (backing_memWrite · · · b) s a bytes

/-- The addresses after the first, counted from it. -/
theorem above_add_one (a : Word) (k : Nat) : above (a + 1) k = above a (k + 1) := by
  rw [above_succ, above, above]
  bv_omega

/-- No address comes round to itself within the 16-bit space. -/
theorem above_succ_ne (a : Word) (k : Nat) (inside : k + 1 < 0x10000) : a ≠ above a (k + 1) := by
  rw [above]
  bv_omega

/-- A POKE leaves alone the bytes it does not meet. -/
theorem storedByte_poke_other (s : State) (a b : Word) (bytes : List Byte) (off : ∀ k < bytes.length, b ≠ above a k) :
    (s.poke a bytes).storedByte b = s.storedByte b := by
  induction bytes generalizing s a with
  | nil => rfl
  | cons v rest ih =>
    have offFirst : b ≠ a := above_zero a ▸ off 0 (Nat.succ_pos _)
    have offRest : ∀ k < rest.length, b ≠ above (a + 1) k := fun k inside =>
      above_add_one a k ▸ off (k + 1) (Nat.succ_lt_succ inside)
    exact (ih _ _ offRest).trans (storedByte_memWrite_other offFirst v)

/-- Program space gives what was poked into RAM: each byte stays as those after it are written (20_memory.md rules R73
and R77). -/
theorem poke_gives (s : State) (a : Word) (bytes : List Byte) (ram : ∀ k < bytes.length, s.backing (above a k) = .ram)
    (short : bytes.length ≤ 0x10000) : (s.poke a bytes).gives a bytes := by
  induction bytes generalizing s a with
  | nil => trivial
  | cons v rest ih =>
    have ramHere : s.backing a = .ram := above_zero a ▸ ram 0 (Nat.succ_pos _)
    have ramRest : ∀ k < rest.length, (s.memWrite a v).backing (above (a + 1) k) = .ram := fun k inside => by
      rw [backing_memWrite, above_add_one]
      exact ram (k + 1) (Nat.succ_lt_succ inside)
    rw [List.length_cons] at short
    refine ⟨?_, ih (s.memWrite a v) (a + 1) ramRest (by omega)⟩
    have off : ∀ k < rest.length, a ≠ above (a + 1) k := fun k inside =>
      above_add_one a k ▸ above_succ_ne a k (by omega)
    have held : (s.poke a (v :: rest)).storedByte a = v :=
      (storedByte_poke_other _ _ _ rest off).trans (storedByte_memWrite_same ramHere v)
    have still : (s.poke a (v :: rest)).backing a = .ram := (backing_poke s a _ a).trans ramHere
    rw [codeRead_held (.inr (.inl still)), held]

/-- Settles O6: the poked state is running, with pc where it was, and program space gives the encoding there. -/
theorem pokedCodeRunsAtOnce : Obligations.PokedCodeRunsAtOnce := by
  intro s i running ram
  have short : (encode i).length ≤ 0x10000 := (instrLength_le i).trans (by decide)
  have given := poke_gives s s.pc (encode i) ram short
  have samePc : (s.poke s.pc (encode i)).pc = s.pc := poke_keeps (·.pc) memWrite_pc s s.pc _
  have stillRunning : (s.poke s.pc (encode i)).status = .running :=
    (poke_keeps (·.status) memWrite_status s s.pc _).trans running
  have fetched : fetch (s.poke s.pc (encode i)) = (i, s.poke s.pc (encode i)) :=
    fetch_of_gives (samePc.symm ▸ given)
  rw [step_running stillRunning, fetched]

end Sys2Proof.Machine
end

section
/-! SUPPORT. What answers on the platform of a model: the first region of `MEMMAP` that covers the address decides
(20_memory.md rules R63 and R64), so the map is read in its three parts, key port, RAM, external ROM. -/

namespace Sys2Proof.Machine

/-! ### Regions -/

theorem regionCovers_iff (g : Region) (a : Word) :
    regionCovers g a = true ↔ g.base ≤ a.toNat ∧ a.toNat < g.base + g.size := by
  simp only [regionCovers, Bool.and_eq_true, decide_eq_true_eq]

/-- The key port is one address (20_memory.md rule R82). -/
theorem keyPort_covers (a : Word) : regionCovers keyPort a = true ↔ a = 0x3E00 := by
  simp only [regionCovers_iff, keyPort]
  bv_omega

/-- A BASIC area is covered from its first to its last address (20_memory.md rule R78). -/
theorem basicRegion_covers (g : BasicArea) (a : Word) :
    regionCovers (basicRegion g) a = true ↔ g.first ≤ a.toNat ∧ a.toNat ≤ g.last := by
  simp only [regionCovers_iff, basicRegion]
  omega

/-- A system pointer is two addresses (20_memory.md rule R79). -/
theorem pointerRegion_covers (k : Nat) (a : Word) :
    regionCovers (pointerRegion k) a = true ↔ a.toNat = k ∨ a.toNat = k + 1 := by
  simp only [regionCovers_iff, pointerRegion]
  omega

/-- The external ROM is the upper half of the space (20_memory.md rule R75). -/
theorem externalRom_covers (a : Word) : regionCovers externalRom a = true ↔ 0x8000 ≤ a.toNat := by
  simp only [regionCovers_iff, externalRom]
  bv_omega

/-- Regions that do not cover the address are passed over. -/
theorem find_append_of_clear {a : Word} {front : List Region} (clear : ∀ h ∈ front, regionCovers h a = false)
    (rest : List Region) : (front ++ rest).find? (regionCovers · a) = rest.find? (regionCovers · a) := by
  have passed : front.find? (regionCovers · a) = none :=
    List.find?_eq_none.mpr fun h mem => Bool.eq_false_iff.mp (clear h mem)
  rw [List.find?_append, passed, Option.none_or]

/-- Where the front of the map does not cover the address and what follows is RAM and does, RAM answers. -/
theorem backing_ram_of_mem {s : State} {a : Word} {front rams back : List Region} {g : Region}
    (map : s.platform.memmap = front ++ (rams ++ back)) (outside : 0x2000 ≤ a.toNat)
    (clear : ∀ h ∈ front, regionCovers h a = false) (allRam : ∀ h ∈ rams, h.kind = .ram) (there : g ∈ rams)
    (covers : regionCovers g a = true) : s.backing a = .ram := by
  obtain ⟨first, found⟩ : ∃ first, rams.find? (regionCovers · a) = some first :=
    Option.isSome_iff_exists.mp (List.find?_isSome.mpr ⟨g, there, covers⟩)
  have here : s.platform.memmap.find? (regionCovers · a) = some first := by
    rw [map, find_append_of_clear clear, List.find?_append, found, Option.some_or]
  rw [backing_of_find outside here, allRam first (List.mem_of_find?_eq_some found)]
  rfl

/-! ### The map of a model -/

/-- The key port, where the model has one. -/
def keyPorts (m : Model) : List Region := if hasKeyPort m then [keyPort] else []

/-- The RAM of a model's tables: its BASIC area and its system pointers. -/
def tableRam (m : Model) (g : BasicArea) : List Region :=
  basicRegion g :: (systemPointers m).addresses.map pointerRegion

/-- The map of a model in the order in which its regions answer. -/
theorem platformOf_memmap (m : Model) (g : BasicArea) (fitted : List Region) (top : IramTop) (qExtra : Bool) :
    (platformOf m g fitted top qExtra).memmap =
      keyPorts m ++ (tableRam m g ++ (fitted ++ if hasExternalRom g then [externalRom] else [])) := by
  simp only [platformOf, keyPorts, tableRam, List.append_assoc, List.cons_append]

/-- The key port covers no other address, and none where the model has none. -/
theorem keyPorts_clear {m : Model} {a : Word} (off : hasKeyPort m = true → a ≠ 0x3E00) :
    ∀ h ∈ keyPorts m, regionCovers h a = false := by
  intro h mem
  unfold keyPorts at mem
  split at mem
  · rw [List.mem_singleton.mp mem]
    exact Bool.eq_false_iff.mpr fun covers => off ‹_› ((keyPort_covers a).mp covers)
  · cases mem

/-- A region of a model's RAM is its BASIC area or one of its pointers. -/
theorem mem_tableRam (m : Model) (g : BasicArea) (h : Region) :
    h ∈ tableRam m g ↔ h = basicRegion g ∨ ∃ k ∈ (systemPointers m).addresses, pointerRegion k = h := by
  rw [tableRam, List.mem_cons, List.mem_map]

theorem tableRam_isRam (m : Model) (g : BasicArea) : ∀ h ∈ tableRam m g, h.kind = .ram := by
  intro h mem
  rcases (mem_tableRam m g h).mp mem with rfl | ⟨k, _, rfl⟩ <;> rfl

/-! ### The tables -/

/-- Every BASIC area lies on the external bus (20_memory.md rules R74 and R78). -/
theorem basicAreas_outside : ∀ g ∈ basicAreas, 0x2000 ≤ g.first := by decide

/-- Every system pointer lies on the external bus and off the key port (20_memory.md rules R74, R79 and R82). -/
theorem systemPointers_outside (m : Model) :
    ∀ k ∈ (systemPointers m).addresses, 0x2000 ≤ k ∧ k ≠ 0x3E00 ∧ k + 1 ≠ 0x3E00 := by
  cases m <;> decide

/-- The system pointers of a model lie below &8000 where its BASIC area does (20_memory.md rules R75, R78 and R79). -/
theorem systemPointers_low :
    ∀ g ∈ basicAreas, g.last < 0x8000 → ∀ m ∈ g.models, ∀ k ∈ (systemPointers m).addresses, k + 1 < 0x8000 := by
  decide

/-! ### What answers where -/

section

variable {s : State} {m : Model} {g : BasicArea} {fitted : List Region} {top : IramTop} {qExtra : Bool} {a : Word}

/-- The key port is the first region of the map (20_memory.md rule R82). -/
theorem backing_keyPort (platform : s.platform = platformOf m g fitted top qExtra) (has : hasKeyPort m = true) :
    s.backing 0x3E00 = .device := by
  have found : s.platform.memmap.find? (regionCovers · 0x3E00) = some keyPort := by
    rw [platform, platformOf_memmap, keyPorts, if_pos has]
    exact List.find?_cons_of_pos (p := (regionCovers · 0x3E00)) ((keyPort_covers 0x3E00).mpr rfl)
  rw [backing_of_find (by decide) found]
  rfl

/-- What the tables' RAM covers and the key port does not is RAM (20_memory.md rules R78 and R79). -/
theorem backing_tableRam (platform : s.platform = platformOf m g fitted top qExtra) (outside : 0x2000 ≤ a.toNat)
    (off : hasKeyPort m = true → a ≠ 0x3E00) {h : Region} (there : h ∈ tableRam m g)
    (covers : regionCovers h a = true) : s.backing a = .ram :=
  backing_ram_of_mem (platform ▸ platformOf_memmap m g fitted top qExtra) outside (keyPorts_clear off)
    (tableRam_isRam m g) there covers

/-- Above a BASIC area that leaves the upper half free, with nothing further fitted, the external ROM answers
(20_memory.md rule R75). -/
theorem backing_externalRom (area : g ∈ basicAreas) (model : m ∈ g.models)
    (platform : s.platform = platformOf m g [] top qExtra) (low : g.last < 0x8000) (high : 0x8000 ≤ a.toNat) :
    s.backing a = .rom := by
  have offPort : ∀ h ∈ keyPorts m, regionCovers h a = false :=
    keyPorts_clear fun _ port => by rw [port] at high; exact absurd high (by decide)
  have offRam : ∀ h ∈ tableRam m g, regionCovers h a = false := by
    intro h mem
    refine Bool.eq_false_iff.mpr fun covers => ?_
    rcases (mem_tableRam m g h).mp mem with rfl | ⟨k, pointer, rfl⟩
    · rw [basicRegion_covers] at covers
      omega
    · have below := systemPointers_low g area low m model k pointer
      rw [pointerRegion_covers] at covers
      omega
  have found : s.platform.memmap.find? (regionCovers · a) = some externalRom := by
    rw [platform, platformOf_memmap, find_append_of_clear offPort, find_append_of_clear offRam, hasExternalRom,
      decide_eq_true low]
    exact List.find?_cons_of_pos (p := (regionCovers · a)) ((externalRom_covers a).mpr high)
  rw [backing_of_find (by omega) found]
  rfl

end

/-- Settles O60: the key port first, then the tables' RAM, then the external ROM; that the tables keep the three apart
is read off them. -/
theorem platformsFollowTheTables : Obligations.PlatformsFollowTheTables := by
  intro s m g fitted top qExtra a area model platform
  refine ⟨fun has port => ?keyPort, fun low high off => ?basicArea, fun k pointer covered => ?pointer,
    fun bare low high => ?externalRom⟩
  case keyPort => exact port ▸ backing_keyPort platform has
  case basicArea =>
    exact backing_tableRam platform ((basicAreas_outside g area).trans low) off
      ((mem_tableRam m g _).mpr (.inl rfl)) ((basicRegion_covers g a).mpr ⟨low, high⟩)
  case pointer =>
    obtain ⟨outside, offLow, offHigh⟩ := systemPointers_outside m k pointer
    have off : a ≠ 0x3E00 := by
      rintro rfl
      rcases covered with e | e
      · exact offLow e.symm
      · exact offHigh e.symm
    exact backing_tableRam platform (by omega) (fun _ => off) ((mem_tableRam m g _).mpr (.inr ⟨k, pointer, rfl⟩))
      ((pointerRegion_covers k a).mpr covered)
  case externalRom =>
    subst bare
    have rom := backing_externalRom area model platform low high
    exact ⟨rom, memRead_held (.inr rom)⟩

end Sys2Proof.Machine
end

section
/-! SUPPORT. The decoder against the encoder (30_encoding.md rules R90 to R102): the operands a list of bytes gives its
first byte, and what the opcode map holds at each of the 256 first bytes. -/

namespace Sys2Proof

/-! ### Taking a list of bytes apart -/

/-- Bytes decode where the first one's operands follow it, and what is left over follows those (30_encoding.md rules
R98 and R99). -/
theorem decode_eq_ok_iff (bytes rest : List Byte) (i : Instr) :
    decode bytes = .ok (i, rest) ↔
      ∃ b0 operands, bytes = b0 :: (operands ++ rest) ∧ operandCount b0 = operands.length ∧
        decodeOpcode b0 operands = i := by
  constructor
  · intro decoded
    cases bytes with
    | nil => cases decoded
    | cons b0 further =>
      rw [decode] at decoded
      split at decoded
      · cases decoded
      · next long =>
        cases decoded
        refine ⟨b0, further.take (operandCount b0), ?_, ?_, rfl⟩
        · rw [List.take_append_drop]
        · rw [List.length_take_of_le (Nat.le_of_not_lt long)]
  · rintro ⟨b0, operands, rfl, count, rfl⟩
    rw [decode, count, if_neg (by rw [List.length_append]; omega), List.take_left, List.drop_left]

/-- Settles O1: every encoding is a first byte and the operands it asks for. -/
theorem decodingAnEncodingGivesItBack : Obligations.DecodingAnEncodingGivesItBack := by
  intro i rest
  obtain ⟨b0, operands, enc⟩ := exists_encodes i
  exact (decode_eq_ok_iff _ _ _).2 ⟨b0, operands, by rw [enc.bytes, List.cons_append], enc.count, enc.decodes⟩

/-! ### The opcode map, cell by cell -/

/-- What holds of every cell of the map holds of every first byte and its entry (30_encoding.md rule R100). -/
theorem opcodeEntry_of_cells {holds : Byte → OpcodeEntry → Prop}
    (cells : ∀ hi lo : Fin 16, holds (joinNibbles ⟨hi⟩ ⟨lo⟩) opcodeMap[hi][lo]) (b0 : Byte) :
    holds b0 (opcodeEntry b0) := by
  have joined : joinNibbles (hiNibble b0) (loNibble b0) = b0 := BitVec.extractLsb'_append_extractLsb'
  have cell : holds (joinNibbles (hiNibble b0) (loNibble b0)) (opcodeEntry b0) := cells (hiNibble b0).toFin _
  rwa [joined] at cell

/-- The entry makes instructions whose encoding is the first byte `b0` and the operands in its format, a 16-bit operand
high byte first (30_encoding.md rules R91 to R96). -/
def OpcodeEntry.WritesBack (n : Byte) (nm : Word) (b0 : Byte) : OpcodeEntry → Prop
  | .plain i => encode i = [b0]
  | .lp => 0b10#2 ++ b0.extractLsb' 0 6 = b0
  | .byte mk => encode (mk n) = encodeByte b0 n
  | .cal => 0b111#3 ++ b0.extractLsb' 0 5 = b0
  | .word mk => encode (mk nm) = encodeWord b0 nm
  | .table mk => encode (mk n nm) = [b0, n, hiByte nm, loByte nm]

/-- No cell of the map holds an instruction that is encoded elsewhere: read off the 256 cells (30_encoding.md rule
R100). -/
theorem opcodeEntry_writesBack (n : Byte) (nm : Word) (b0 : Byte) : (opcodeEntry b0).WritesBack n nm b0 := by
  apply opcodeEntry_of_cells
  intro hi lo
  fin_cases hi <;> fin_cases lo <;> exact rfl

/-- The 28 first bytes without an instruction page, and WRIT's (30_encoding.md rules R101 and R102). -/
def undescribedBytes : List Byte :=
  [0x16, 0x17, 0x2E, 0x33, 0x36, 0x3C, 0x3D, 0x3E, 0x3F, 0x5C, 0x5E, 0x68, 0x6A, 0x6C, 0x6D, 0x6E,
   0x6F, 0x72, 0x73, 0x76, 0x77, 0x7B, 0xCD, 0xCF, 0xD3, 0xD7, 0xD9, 0xDC, 0xDE]

/-- Whether the decoded instruction is described does not depend on the operands: read off the 256 cells. -/
theorem wellFormed_decodeOpcode (b0 : Byte) (operands : List Byte) :
    (decodeOpcode b0 operands).wellFormed = !undescribedBytes.contains b0 := by
  rw [decodeOpcode]
  generalize operands.getD 0 0 = op1, operands.getD 1 0 = op2, operands.getD 2 0 = op3
  apply opcodeEntry_of_cells (holds := fun b e => (e.instr b op1 op2 op3).wellFormed = !undescribedBytes.contains b)
  intro hi lo
  fin_cases hi <;> fin_cases lo <;> exact rfl

/-- Settles O3: the bytes of the statement are `undescribedBytes`. -/
theorem undescribedFirstBytes : Obligations.UndescribedFirstBytes := by
  intro b0 operands
  change _ ↔ b0 ∈ undescribedBytes
  rw [wellFormed_decodeOpcode, Bool.not_eq_false', List.contains_iff_mem]

/-! ### What decodes is an encoding -/

/-- CAL's 13-bit target keeps the bits of both its bytes (30_encoding.md rule R94). -/
theorem encode_cal (h : BitVec 5) (n : Byte) : encode (.cal (h ++ n)) = [0b111#3 ++ h, n] := by
  change [0b111#3 ++ (h ++ n).extractLsb' 8 5, (h ++ n).extractLsb' 0 8] = _
  rw [BitVec.extractLsb'_append_eq_left, BitVec.extractLsb'_append_eq_right]

/-- An instruction made from a first byte and its operands is encoded by them (30_encoding.md rules R91 to R98). -/
theorem OpcodeEntry.WritesBack.encode_instr {e : OpcodeEntry} {b0 : Byte} (back : ∀ n nm, e.WritesBack n nm b0)
    (op1 op2 op3 : Byte) : encode (e.instr b0 op1 op2 op3) = b0 :: [op1, op2, op3].take e.operandCount := by
  cases e with
  | plain i => exact back 0 0
  | lp => exact congrArg (fun b => [b]) (back 0 0)
  | byte mk => exact back op1 0
  | cal => exact (encode_cal _ op1).trans (congrArg (fun b => [b, op1]) (back 0 0))
  | word mk =>
    refine (back 0 (joinBytes op1 op2)).trans ?_
    rw [encodeWord, hiByte_joinBytes, loByte_joinBytes]
    rfl
  | table mk =>
    refine (back op1 (joinBytes op2 op3)).trans ?_
    rw [hiByte_joinBytes, loByte_joinBytes]
    rfl

/-- The three operands the decoder looks at are as many of the given ones as there are. -/
theorem take_getD_of_length_le {operands : List Byte} (short : operands.length ≤ 3) :
    [operands.getD 0 0, operands.getD 1 0, operands.getD 2 0].take operands.length = operands := by
  match operands, short with
  | [], _ => rfl
  | [_], _ => rfl
  | [_, _], _ => rfl
  | [_, _, _], _ => rfl

/-- With as many operands as it asks for, a first byte is the encoding's first byte (30_encoding.md rules R98 and
R99). -/
theorem encode_decodeOpcode {b0 : Byte} {operands : List Byte} (count : operandCount b0 = operands.length) :
    encode (decodeOpcode b0 operands) = b0 :: operands := by
  have back := OpcodeEntry.WritesBack.encode_instr (fun n nm => opcodeEntry_writesBack n nm b0)
  rw [decodeOpcode, back, ← operandCount, count, take_getD_of_length_le (count ▸ operandCount_le b0)]

/-- Settles O2: what decodes is a first byte with its operands and what follows them. -/
theorem decodedBytesAreTheEncoding : Obligations.DecodedBytesAreTheEncoding := by
  intro bytes rest i decoded
  obtain ⟨b0, operands, rfl, count, rfl⟩ := (decode_eq_ok_iff _ _ _).1 decoded
  rw [encode_decodeOpcode count, List.cons_append]

/-- Settles O4: each word is decoded as it stands. -/
theorem sampleWordsDecode : Obligations.SampleWordsDecode :=
  ⟨rfl, rfl, rfl, rfl, rfl, rfl, rfl, rfl, rfl, rfl, rfl⟩

end Sys2Proof
end

section
/-! SUPPORT. The fetch of the bytes that memory holds (30_encoding.md rule R107, 20_memory.md rule R62). -/

namespace Sys2Proof.Machine

/-- Where memory holds a byte, program space gives it (20_memory.md rule R62). -/
theorem codeRead_fetchable {s : State} {a : Word} (held : s.fetchable a = true) :
    s.codeRead a = (s.storedByte a, s) := by
  apply codeRead_held
  rw [State.fetchable] at held
  revert held
  cases s.backing a <;> decide

/-- Program space gives these bytes where each is held by memory at its own address. -/
theorem gives_of_held {s : State} {a : Word} {bytes : List Byte}
    (held : ∀ k < bytes.length, s.fetchable (above a k) = true)
    (stored : ∀ k, (inside : k < bytes.length) → s.storedByte (above a k) = bytes[k]) : s.gives a bytes := by
  induction bytes generalizing a with
  | nil => trivial
  | cons v rest ih =>
    have here : s.codeRead a = (v, s) := by
      have first := codeRead_fetchable (held 0 (Nat.succ_pos _))
      rwa [stored 0 (Nat.succ_pos _), above_zero] at first
    refine ⟨here, ih (fun k inside => ?_) (fun k inside => ?_)⟩
    · rw [above_add_one]
      exact held (k + 1) (Nat.succ_lt_succ inside)
    · rw [above_add_one]
      exact stored (k + 1) (Nat.succ_lt_succ inside)

/-- A byte of the window is the one memory holds at its address. -/
theorem getElem_window (s : State) (a : Word) (k : Nat) (inside : k < (s.window a).length) :
    (s.window a)[k] = s.storedByte (above a k) := by
  simp only [State.window, List.getElem_map, List.getElem_range]

/-- Settles O5: the window begins with the encoding of what it decodes to, so the fetch reads that encoding and leaves
the state. -/
theorem stepRunsTheDecodedInstruction : Obligations.StepRunsTheDecodedInstruction := by
  intro s i rest running decoded held
  have window : encode i ++ rest = s.window s.pc := decodedBytesAreTheEncoding _ _ _ decoded
  have given : s.gives s.pc (encode i) := gives_of_held held fun k inside => by
    rw [← getElem_window s s.pc k (by rw [← window, List.length_append]; omega)]
    simp only [← window, List.getElem_append_left inside]
  rw [step_running running, fetch_of_gives given]

end Sys2Proof.Machine
end

section
/-! SUPPORT. Loads, transfers, moves, exchanges and the stack (40_load_transfer.md). P, Q, R and the digits of A are
stated as numbers; an instruction that uses a byte of internal RAM has an equation for where that byte exists
(10_state.md rule R29), and a data or program-space access is described by what it leaves as it was. -/

namespace Sys2Proof.Machine

/-! ### Values -/

/-- A byte stored into P, Q or R loses bit 7 (10_state.md rule R30). -/
theorem toNat_toPtr (v : Byte) : (toPtr v).toNat = v.toNat % 128 := by
  rw [toPtr, BitVec.extractLsb'_toNat, Nat.shiftRight_zero]

/-- P, Q or R copied to A is the same number (10_state.md rule R30). -/
theorem toNat_ofPtr (p : Ptr) : (ofPtr p).toNat = p.toNat :=
  BitVec.toNat_setWidth_of_le (by decide)

/-- The operand of LP is the same number in P (40_load_transfer.md rule R129). -/
theorem toNat_setWidth_lp (l : BitVec 6) : (l.setWidth 7).toNat = l.toNat :=
  BitVec.toNat_setWidth_of_le (by decide)

/-- Two digits joined are sixteen times the high one and the low one. -/
theorem toNat_joinNibbles (hi lo : BitVec 4) : (joinNibbles hi lo).toNat = hi.toNat * 16 + lo.toNat := by
  rw [joinNibbles, BitVec.toNat_append, ← Nat.shiftLeft_add_eq_or_of_lt lo.isLt, Nat.shiftLeft_eq]

/-- A byte with its digits exchanged (40_load_transfer.md rule R144). -/
theorem toNat_swapNibbles (v : Byte) :
    (joinNibbles (loNibble v) (hiNibble v)).toNat = v.toNat % 16 * 16 + v.toNat / 16 := by
  have low : (loNibble v).toNat = v.toNat % 16 := by
    rw [loNibble, BitVec.extractLsb'_toNat, Nat.shiftRight_zero]
  have high : (hiNibble v).toNat = v.toNat / 16 := by
    rw [hiNibble, BitVec.extractLsb'_toNat, Nat.shiftRight_eq_div_pow]
    exact Nat.mod_eq_of_lt (Nat.div_lt_of_lt_mul v.isLt)
  rw [toNat_joinNibbles, low, high]

/-! ### What an update leaves -/

/-- A register written holds what was written. -/
theorem reg_setReg_same (s : State) (g : Reg) (v : Byte) : (s.setReg g v).reg g = v := by
  rw [reg_setReg, if_pos rfl]

/-- A cell written holds what was written. -/
theorem iramGet_iramSet_same (s : State) (a : Ptr) (v : Byte) : (s.iramSet a v).iramGet a = v := by
  rw [iramGet_iramSet, if_pos rfl]

/-- A takes P, Q or R as a number (40_load_transfer.md rules R130 to R132). -/
theorem toNat_reg_setReg_ofPtr (s : State) (g : Reg) (p : Ptr) : ((s.setReg g (ofPtr p)).reg g).toNat = p.toNat := by
  rw [reg_setReg_same, toNat_ofPtr]

/-- A data read writes no flag (20_memory.md rule R63). -/
theorem memRead_flagsKept (s : State) (a : Word) : FlagsKept s (s.memRead a).2 := ⟨memRead_c s a, memRead_z s a⟩

/-- A program-space read writes no flag (20_memory.md rule R62). -/
theorem codeRead_flagsKept (s : State) (a : Word) : FlagsKept s (s.codeRead a).2 := ⟨codeRead_c s a, codeRead_z s a⟩

/-- A data write writes no flag (20_memory.md rule R64). -/
theorem memWrite_flagsKept (s : State) (a : Word) (v : Byte) : FlagsKept s (s.memWrite a v) :=
  ⟨memWrite_c s a v, memWrite_z s a v⟩

/-! ### Where the byte used exists -/

section

variable {s : State}

/-- `(P)` as a source where it exists. -/
theorem atP_present (present : s.implemented s.p = true) : s.atP = .ok (s.iramGet s.p) :=
  readIram_implemented s s.p present

/-- `(P)` as a destination, in a state that has the P and the platform of one where it exists. -/
theorem setAtP_present (present : s.implemented s.p = true) {u : State} (p : u.p = s.p)
    (platform : u.platform = s.platform) (v : Byte) : u.setAtP v = .ok (u.iramSet s.p v) := by
  rw [State.setAtP, p]
  exact writeIram_implemented u s.p v ((implemented_congr s u s.p platform).trans present)

/-- The end EXAM, MVMD and READM share: the byte into (P), pc one on. -/
theorem storeAtP_present (present : s.implemented s.p = true) {u : State} (p : u.p = s.p)
    (platform : u.platform = s.platform) (v : Byte) :
    outcome (do let t ← u.setAtP v; .ok (t.advance 1)) = .next ((u.iramSet s.p v).advance 1) := by
  rw [setAtP_present present p platform, ok_bind, outcome_ok]

/-- LDM (40_load_transfer.md rule R137). -/
theorem execLdm_present (present : s.implemented s.p = true) :
    execLdm s = .next ((s.setReg .a (s.iramGet s.p)).advance 1) := by
  rw [execLdm, atP_present present, ok_bind, outcome_ok]

/-- EXAM (40_load_transfer.md rule R143). -/
theorem execExam_present (present : s.implemented s.p = true) :
    execExam s = .next (((s.setReg .a (s.iramGet s.p)).iramSet s.p (s.reg .a)).advance 1) := by
  rw [execExam, atP_present present, ok_bind]
  exact storeAtP_present present (setReg_p s .a _) (setReg_platform s .a _) (s.reg .a)

/-- EXAM leaves in A the byte (P) held, where P names A as well: there the exchange changes nothing. -/
theorem reg_a_of_exchange (s : State) :
    ((s.setReg .a (s.iramGet s.p)).iramSet s.p (s.reg .a)).reg .a = s.iramGet s.p := by
  rw [reg_iramSet]
  split
  · rename_i names
    rw [names, reg_eq_iramGet]
  · exact reg_setReg_same s .a _

/-- PUSH (40_load_transfer.md rule R147). -/
theorem execPush_present (present : s.implemented (s.r - 1) = true) :
    execPush s = .next (({ s with r := s.r - 1 }.iramSet (s.r - 1) (s.reg .a)).advance 1) := by
  have below : ({ s with r := s.r - 1 } : State).implemented (s.r - 1) = true := present
  rw [execPush, writeIram_implemented _ _ _ below, ok_bind, outcome_ok]

/-- LEAVE (40_load_transfer.md rule R149). -/
theorem execLeave_present (present : s.implemented s.r = true) :
    execLeave s = .next ((s.iramSet s.r 0).advance 1) := by
  rw [execLeave, writeIram_implemented s s.r 0 present, ok_bind, outcome_ok]

/-- MVDM (40_load_transfer.md rule R140). -/
theorem execMvdm_present (present : s.implemented s.p = true) :
    execMvdm s = .next ((s.memWrite s.dp (s.iramGet s.p)).advance 1) := by
  rw [execMvdm, atP_present present, ok_bind, outcome_ok]

/-- MVMD (40_load_transfer.md rule R141). -/
theorem execMvmd_present (present : s.implemented s.p = true) :
    execMvmd s = .next (((s.memRead s.dp).2.iramSet s.p (s.memRead s.dp).1).advance 1) :=
  storeAtP_present present (memRead_p s s.dp) (memRead_platform s s.dp) _

/-- READM (40_load_transfer.md rule R146). -/
theorem execReadm_present (present : s.implemented s.p = true) :
    execReadm s = .next (((s.codeRead (s.pc + 1)).2.iramSet s.p (s.codeRead (s.pc + 1)).1).advance 1) :=
  storeAtP_present present (codeRead_p s _) (codeRead_platform s _) _

end

/-! ### The statements -/

/-- An immediate load of a register (40_load_transfer.md rules R121 to R124). -/
theorem loadImmediate_loads (s : State) (g : Reg) (n : Byte) :
    ∃ t, s.loadImmediate g n = .next t ∧ t.reg g = n ∧ t.pc = s.pc + 2 ∧ FlagsKept s t :=
  ⟨_, rfl, reg_setReg_same s g n, rfl, rfl, rfl⟩

/-- Settles O11: the four loads of a register in internal RAM are one meaning; P and Q take 7 bits, P from LP 6. -/
theorem immediateLoads : Obligations.ImmediateLoads := by
  intro s n nm l
  refine ⟨loadImmediate_loads s .i n, loadImmediate_loads s .j n, loadImmediate_loads s .a n,
    loadImmediate_loads s .b n, ?lidp, ?lidl, ?lip, ?liq, ?lp, ?headers⟩
  case lidp => exact ⟨_, rfl, rfl, rfl, rfl, rfl⟩
  case lidl => exact ⟨_, rfl, hiByte_joinBytes _ n, loByte_joinBytes _ n, rfl, rfl, rfl⟩
  case lip => exact ⟨_, rfl, toNat_toPtr n, rfl, rfl, rfl⟩
  case liq => exact ⟨_, rfl, toNat_toPtr n, rfl, rfl, rfl⟩
  case lp => exact ⟨_, rfl, toNat_setWidth_lp l, rfl, rfl, rfl⟩
  case headers => exact ⟨⟨rfl, rfl⟩, ⟨rfl, rfl⟩, ⟨rfl, rfl⟩, ⟨rfl, rfl⟩, ⟨rfl, rfl⟩, ⟨rfl, rfl⟩, ⟨rfl, rfl⟩,
      ⟨rfl, rfl⟩, rfl, rfl⟩

/-- Settles O12: what A takes is written to its cell, what P, Q and R take to their fields; EXAB writes A first, from
B, and B from the A it had. -/
theorem registerTransfers : Obligations.RegisterTransfers := by
  intro s
  refine ⟨?ldp, ?ldq, ?ldr, ?ra, ?stp, ?stq, ?str, ?exab, ?swp, ?headers⟩
  case ldp => exact ⟨_, rfl, toNat_reg_setReg_ofPtr s .a s.p, rfl, rfl, rfl⟩
  case ldq => exact ⟨_, rfl, toNat_reg_setReg_ofPtr s .a s.q, rfl, rfl, rfl⟩
  case ldr => exact ⟨_, rfl, toNat_reg_setReg_ofPtr s .a s.r, rfl, rfl, rfl⟩
  case ra => exact ⟨_, rfl, reg_setReg_same s .a 0, rfl, rfl, rfl⟩
  case stp => exact ⟨_, rfl, toNat_toPtr _, rfl, rfl, rfl⟩
  case stq => exact ⟨_, rfl, toNat_toPtr _, rfl, rfl, rfl⟩
  case str => exact ⟨_, rfl, toNat_toPtr _, rfl, rfl, rfl⟩
  case exab =>
    refine ⟨_, rfl, ?_, reg_setReg_same _ .b _, rfl, rfl, rfl⟩
    rw [reg_advance, reg_setReg, if_neg (by decide), reg_setReg_same]
  case swp => exact ⟨_, rfl, by rw [reg_advance, reg_setReg_same, toNat_swapNibbles], rfl, rfl, rfl⟩
  case headers => exact ⟨⟨rfl, rfl⟩, ⟨rfl, rfl⟩, ⟨rfl, rfl⟩, ⟨rfl, rfl⟩, ⟨rfl, rfl⟩, ⟨rfl, rfl⟩, ⟨rfl, rfl⟩,
      ⟨rfl, rfl⟩, rfl, rfl⟩

/-- Settles O13: where the byte exists the instruction is one read, one write or both. -/
theorem internalMovesAndStack : Obligations.InternalMovesAndStack := by
  intro s
  refine ⟨fun present => ?ldm, fun present => ?exam, fun present => ?push, fun present => ?pop, fun present => ?leave,
    ?headers⟩
  case ldm => exact ⟨_, execLdm_present present, reg_setReg_same s .a _, rfl, rfl, rfl⟩
  case exam =>
    exact ⟨_, execExam_present present, reg_a_of_exchange s, iramGet_iramSet_same _ s.p _, rfl, rfl, rfl⟩
  case push => exact ⟨_, execPush_present present, rfl, iramGet_iramSet_same _ (s.r - 1) _, rfl, rfl, rfl⟩
  case pop => exact ⟨_, execPop_present s present, reg_setReg_same s .a _, rfl, rfl, rfl, rfl⟩
  case leave => exact ⟨_, execLeave_present present, iramGet_iramSet_same s s.r 0, rfl, rfl, rfl, rfl⟩
  case headers => exact ⟨⟨rfl, rfl⟩, ⟨rfl, rfl⟩, ⟨rfl, rfl⟩, ⟨rfl, rfl⟩, rfl, rfl⟩

/-- Settles O14: the access, then the byte into A or (P); what the access keeps, the instruction keeps. -/
theorem externalMoves : Obligations.ExternalMoves := by
  intro s
  have dataPc : (s.memRead s.dp).2.pc + 1 = s.pc + 1 := by rw [memRead_pc]
  have codePc : (s.codeRead (s.pc + 1)).2.pc + 1 = s.pc + 1 := by rw [codeRead_pc]
  have storePc (v : Byte) : (s.memWrite s.dp v).pc + 1 = s.pc + 1 := by rw [memWrite_pc]
  refine ⟨?ldd, ?std, fun present => ?mvdm, fun present => ?mvmd, ?read, fun present => ?readm, ?headers⟩
  case ldd => exact ⟨_, rfl, reg_setReg_same _ .a _, dataPc, memRead_flagsKept s s.dp⟩
  case std => exact ⟨_, rfl, rfl, rfl, storePc _, memWrite_flagsKept s s.dp _⟩
  case mvdm =>
    exact ⟨_, execMvdm_present present, rfl, rfl, memWrite_p s s.dp _, memWrite_dp s s.dp _, storePc _,
      memWrite_flagsKept s s.dp _⟩
  case mvmd =>
    exact ⟨_, execMvmd_present present, iramGet_iramSet_same _ s.p _, memRead_p s s.dp, memRead_dp s s.dp, dataPc,
      memRead_flagsKept s s.dp⟩
  case read => exact ⟨_, rfl, reg_setReg_same _ .a _, codePc, codeRead_flagsKept s (s.pc + 1)⟩
  case readm =>
    exact ⟨_, execReadm_present present, iramGet_iramSet_same _ s.p _, codePc, codeRead_flagsKept s (s.pc + 1)⟩
  case headers => exact ⟨⟨rfl, rfl⟩, ⟨rfl, rfl⟩, ⟨rfl, rfl⟩, ⟨rfl, rfl⟩, ⟨rfl, rfl⟩, rfl, rfl⟩

end Sys2Proof.Machine
end

section
/-! SUPPORT. Arithmetic, logic, compares, rotations and carry (41_arithmetic_logic.md). What the arithmetic unit
computes is stated with numbers; an operation on internal RAM is described where its bytes exist (10_state.md rule R29),
once for all the instructions that use it. -/

namespace Sys2Proof.Machine

/-! ### Values and flags -/

/-- The zero test as the statements write it (41_arithmetic_logic.md rule R171). -/
theorem isZero_eq_decide (v : Byte) : isZero v = decide (v = 0) := rfl

/-- Where the flags are those of `add8`, its value is the sum (41_arithmetic_logic.md rule R170). -/
theorem isSum_add8 {x y : Byte} {cin : Bool} {t : State} (c : t.c = (add8 x y cin).carry)
    (z : t.z = (add8 x y cin).zero) : IsSum x y cin (add8 x y cin).value t := by
  have value : (add8 x y cin).value.toNat = (x.toNat + y.toNat + cin.toNat) % 256 := BitVec.toNat_ofNat _ 8
  refine ⟨value, c, ?_⟩
  rw [z, add8_zero, isZero_eq_decide, ← value]
  exact decide_eq_decide.mpr BitVec.toNat_inj.symm

/-- The borrow of `sub8`: what is taken away is the larger (41_arithmetic_logic.md rule R170). -/
theorem sub8_carry (x y : Byte) (bin : Bool) : (sub8 x y bin).carry = decide (x.toNat < y.toNat + bin.toNat) :=
  decide_eq_decide.mpr (by omega)

/-- Where the flags are those of `sub8`, its value is the difference (41_arithmetic_logic.md rule R170). -/
theorem isDifference_sub8 {x y : Byte} {bin : Bool} {t : State} (c : t.c = (sub8 x y bin).carry)
    (z : t.z = (sub8 x y bin).zero) : IsDifference x y bin (sub8 x y bin).value t := by
  have value : ((sub8 x y bin).value.toNat : Int) = ((x.toNat : Int) - y.toNat - bin.toNat) % 256 := by
    have whole := sub8_exact x y bin
    have bound := (sub8 x y bin).value.isLt
    omega
  refine ⟨value, c.trans (sub8_carry x y bin), ?_⟩
  rw [z, sub8_zero, isZero_eq_decide, ← value]
  exact decide_eq_decide.mpr (BitVec.toNat_inj.symm.trans Int.natCast_eq_zero.symm)

/-- A difference of two bytes is zero where they are equal (41_arithmetic_logic.md rule R193). -/
theorem sub8_zero_eq_decide (x y : Byte) : (sub8 x y false).zero = decide (x = y) := by
  have whole := sub8_exact x y false
  have borrow := Bool.toNat_le (sub8 x y false).carry
  rw [Bool.toNat_false] at whole
  rw [sub8_zero, isZero_eq_decide]
  exact decide_eq_decide.mpr (by bv_omega)

/-- The flags of `sub8` are those of a compare (41_arithmetic_logic.md rules R185, R189, R193). -/
theorem compares_sub8 {x y : Byte} {t : State} (c : t.c = (sub8 x y false).carry) (z : t.z = (sub8 x y false).zero) :
    Compares x y t :=
  ⟨c.trans (sub8_carry x y false), z.trans (sub8_zero_eq_decide x y)⟩

/-- The difference of SBB (41_arithmetic_logic.md rule R181). -/
theorem toNat_sub16 (x y : Word) : ((sub16 x y).value.toNat : Int) = ((x.toNat : Int) - y.toNat) % 65536 := by
  have whole := sub16_exact x y
  have bound := (sub16 x y).value.isLt
  omega

/-- The borrow of SBB (41_arithmetic_logic.md rule R181). -/
theorem sub16_carry (x y : Word) : (sub16 x y).carry = decide (x.toNat < y.toNat) :=
  decide_eq_decide.mpr (by omega)

/-- Two bit strings joined, the first the more significant. -/
theorem toNat_append_eq_add {m n : Nat} (hi : BitVec m) (lo : BitVec n) :
    (hi ++ lo).toNat = hi.toNat * 2 ^ n + lo.toNat := by
  rw [BitVec.toNat_append, ← Nat.shiftLeft_add_eq_or_of_lt lo.isLt, Nat.shiftLeft_eq]

/-- SL moves each bit one up, bit 7 out of the byte, and the carry into bit 0 (41_arithmetic_logic.md rule R197). -/
theorem toNat_rotateLeft (x : Byte) (cin : Bool) :
    (rotateLeft x cin).value.toNat = x.toNat * 2 % 256 + cin.toNat := by
  have low : (x.extractLsb' 0 7).toNat = x.toNat % 128 := by rw [BitVec.extractLsb'_toNat, Nat.shiftRight_zero]
  rw [rotateLeft, toNat_append_eq_add, low, BitVec.toNat_ofBool]
  omega

/-- SR moves each bit one down and the carry into bit 7 (41_arithmetic_logic.md rule R198). -/
theorem toNat_rotateRight (x : Byte) (cin : Bool) :
    (rotateRight x cin).value.toNat = x.toNat / 2 + 128 * cin.toNat := by
  have high : (x.extractLsb' 1 7).toNat = x.toNat / 2 := by
    rw [BitVec.extractLsb'_toNat, Nat.shiftRight_eq_div_pow]
    exact Nat.mod_eq_of_lt (Nat.div_lt_of_lt_mul x.isLt)
  rw [rotateRight, toNat_append_eq_add, high, BitVec.toNat_ofBool]
  omega

/-- The bit SL shifts out is bit 7 (41_arithmetic_logic.md rule R197). -/
theorem rotateLeft_carry (x : Byte) (cin : Bool) : (rotateLeft x cin).carry = decide (128 ≤ x.toNat) :=
  BitVec.msb_eq_decide x

/-- The bit SR shifts out is bit 0 (41_arithmetic_logic.md rule R198). -/
theorem rotateRight_carry (x : Byte) (cin : Bool) : (rotateRight x cin).carry = decide (x.toNat % 2 = 1) :=
  Nat.testBit_zero x.toNat

/-! ### On A -/

/-- ADIA's operation (41_arithmetic_logic.md rule R176). -/
theorem arithA_add8 (s : State) (n : Byte) :
    ∃ t, s.arithA add8 n = .next t ∧ IsSum (s.reg .a) n false (t.reg .a) t ∧ t.pc = s.pc + 2 := by
  refine ⟨_, rfl, ?_, rfl⟩
  rw [reg_advance, reg_setFlags, reg_setReg_same]
  exact isSum_add8 rfl rfl

/-- SBIA's operation (41_arithmetic_logic.md rule R177). -/
theorem arithA_sub8 (s : State) (n : Byte) :
    ∃ t, s.arithA sub8 n = .next t ∧ IsDifference (s.reg .a) n false (t.reg .a) t ∧ t.pc = s.pc + 2 := by
  refine ⟨_, rfl, ?_, rfl⟩
  rw [reg_advance, reg_setFlags, reg_setReg_same]
  exact isDifference_sub8 rfl rfl

/-- ANIA and ORIA (41_arithmetic_logic.md rules R190 and R191). -/
theorem logicA_writes (s : State) (op : Byte → Byte → Byte) (n : Byte) :
    ∃ t, s.logicA op n = .next t ∧ t.reg .a = op (s.reg .a) n ∧ ZeroFlagOnly (op (s.reg .a) n) s t ∧
      t.pc = s.pc + 2 :=
  ⟨_, rfl, reg_setReg_same s .a _, ⟨isZero_eq_decide _, rfl⟩, rfl⟩

/-! ### On (P), where it exists -/

section

variable {s : State}

/-- An operation with its two flags on (P) (41_arithmetic_logic.md rules R172 to R175, R178, R179). -/
theorem arithAtP_present (present : s.implemented s.p = true) (op : Byte → Byte → Bool → Alu8) (y : Byte) (cin : Bool)
    (length : Word) :
    s.arithAtP op y cin length = .next (((s.iramSet s.p (op (s.iramGet s.p) y cin).value).setFlags
      (op (s.iramGet s.p) y cin).carry (op (s.iramGet s.p) y cin).zero).advance length) := by
  rw [State.arithAtP, atP_present present, ok_bind, setAtP_present present rfl rfl, ok_bind, outcome_ok]

/-- The additions (41_arithmetic_logic.md rules R172, R174, R178). -/
theorem arithAtP_add8 (present : s.implemented s.p = true) (y : Byte) (cin : Bool) (length : Word) :
    ∃ t, s.arithAtP add8 y cin length = .next t ∧ IsSum (s.iramGet s.p) y cin (t.iramGet s.p) t ∧
      t.pc = s.pc + length := by
  refine ⟨_, arithAtP_present present add8 y cin length, ?_, rfl⟩
  rw [iramGet_advance, iramGet_setFlags, iramGet_iramSet_same]
  exact isSum_add8 rfl rfl

/-- The subtractions (41_arithmetic_logic.md rules R173, R175, R179). -/
theorem arithAtP_sub8 (present : s.implemented s.p = true) (y : Byte) (cin : Bool) (length : Word) :
    ∃ t, s.arithAtP sub8 y cin length = .next t ∧ IsDifference (s.iramGet s.p) y cin (t.iramGet s.p) t ∧
      t.pc = s.pc + length := by
  refine ⟨_, arithAtP_present present sub8 y cin length, ?_, rfl⟩
  rw [iramGet_advance, iramGet_setFlags, iramGet_iramSet_same]
  exact isDifference_sub8 rfl rfl

/-- ANMA, ORMA, ANIM and ORIM (41_arithmetic_logic.md rules R182, R183, R186, R187). -/
theorem logicAtP_writes (present : s.implemented s.p = true) (op : Byte → Byte → Byte) (y : Byte) (length : Word) :
    ∃ t, s.logicAtP op y length = .next t ∧ t.iramGet s.p = op (s.iramGet s.p) y ∧
      ZeroFlagOnly (op (s.iramGet s.p) y) s t ∧ t.pc = s.pc + length := by
  have ran : s.logicAtP op y length = .next (State.advance
      { s.iramSet s.p (op (s.iramGet s.p) y) with z := isZero (op (s.iramGet s.p) y) } length) := by
    rw [State.logicAtP, atP_present present, ok_bind, setAtP_present present rfl rfl, ok_bind, outcome_ok]
  exact ⟨_, ran, iramGet_iramSet_same s s.p _, ⟨isZero_eq_decide _, rfl⟩, rfl⟩

/-- TSMA and TSIM (41_arithmetic_logic.md rules R184 and R188). -/
theorem testAtP_tests (present : s.implemented s.p = true) (y : Byte) (length : Word) :
    ∃ t, s.testAtP y length = .next t ∧ t.iram = s.iram ∧ ZeroFlagOnly (s.iramGet s.p &&& y) s t ∧
      t.pc = s.pc + length := by
  have ran : s.testAtP y length = .next (State.advance { s with z := isZero (s.iramGet s.p &&& y) } length) := by
    rw [State.testAtP, atP_present present, ok_bind, outcome_ok]
  exact ⟨_, ran, rfl, ⟨isZero_eq_decide _, rfl⟩, rfl⟩

/-- CPMA and CPIM (41_arithmetic_logic.md rules R185 and R189). -/
theorem compareAtP_compares (present : s.implemented s.p = true) (y : Byte) (length : Word) :
    ∃ t, s.compareAtP y length = .next t ∧ t.iram = s.iram ∧ Compares (s.iramGet s.p) y t ∧
      t.pc = s.pc + length := by
  have ran : s.compareAtP y length = .next ((s.setFlags (sub8 (s.iramGet s.p) y false).carry
      (sub8 (s.iramGet s.p) y false).zero).advance length) := by
    rw [State.compareAtP, atP_present present, ok_bind, outcome_ok]
  exact ⟨_, ran, rfl, compares_sub8 rfl rfl, rfl⟩

/-! ### On the 16-bit number at P, where both bytes exist -/

/-- The word at P after a word was written there: its two cells are different ones, at the wrap of P as well. -/
theorem joinBytes_after_word (s : State) (p : Ptr) (w : Word) :
    joinBytes (((s.iramSet p (loByte w)).iramSet (p + 1) (hiByte w)).iramGet (p + 1))
      (((s.iramSet p (loByte w)).iramSet (p + 1) (hiByte w)).iramGet p) = w := by
  have apart : p + 1 ≠ p := by bv_omega
  rw [iramGet_iramSet_same, iramGet_iramSet, if_neg apart, iramGet_iramSet_same, joinBytes_hiByte_loByte]

/-- ADB and SBB: an operation with its two flags on the word at P, P left at the high byte (41_arithmetic_logic.md
rules R180 and R181). -/
theorem wordAtP_writes (low : s.implemented s.p = true) (high : s.implemented (s.p + 1) = true) (op : Word → Alu16)
    {res : Alu16} (gives : res = op (joinBytes (s.iramGet (s.p + 1)) (s.iramGet s.p))) :
    ∃ t, outcome (do
        let x ← s.wordAtP
        let t ← s.setWordAtP (op x).value
        .ok ((t.setFlags (op x).carry (op x).zero).advance 1)) = .next t ∧
      joinBytes (t.iramGet (s.p + 1)) (t.iramGet s.p) = res.value ∧ t.c = res.carry ∧ t.z = res.zero ∧
      t.p = s.p + 1 ∧ t.pc = s.pc + 1 := by
  rw [(wordAtP_eq_ok s _).mpr ⟨low, high, rfl⟩, ok_bind, ← gives,
    (setWordAtP_eq_ok s _ _).mpr ⟨low, high, rfl⟩, ok_bind, outcome_ok]
  exact ⟨_, rfl, joinBytes_after_word s s.p res.value, rfl, rfl, rfl, rfl⟩

/-! ### On (DP), where the scratch byte exists -/

/-- A draw and a data write do not see each other. -/
theorem memWrite_drawByte (s : State) (a : Word) (v : Byte) :
    s.drawByte.2.memWrite a v = (s.memWrite a v).drawByte.2 := by
  unfold State.memWrite
  rw [backing_drawByte]
  cases s.backing a <;> rfl

/-- A data write after a data read leaves the memory it would have left without it. -/
theorem memWrite_memRead_mem (s : State) (a b : Word) (v : Byte) :
    ((s.memRead a).2.memWrite b v).mem = (s.memWrite b v).mem :=
  memRead_keeps s a (fun u => (u.memWrite b v).mem)
    ((congrArg State.mem (memWrite_drawByte s b v)).trans (drawByte_mem _))

/-- It hands a device what it would have handed it. -/
theorem memWrite_memRead_outputs (s : State) (a b : Word) (v : Byte) :
    ((s.memRead a).2.memWrite b v).outputs = (s.memWrite b v).outputs :=
  memRead_keeps s a (fun u => (u.memWrite b v).outputs)
    ((congrArg State.outputs (memWrite_drawByte s b v)).trans (drawByte_outputs _))

/-- The end ANID, ORID and TSID share: a free value into the byte under the stack top, pc two on
(41_arithmetic_logic.md rules R194 to R196). -/
theorem scratch_present (present : s.implemented (s.r - 1) = true) {u : State} (r : u.r = s.r)
    (platform : u.platform = s.platform) :
    outcome (do let t ← u.scratchUnderStack; .ok (t.advance 2)) =
      .next ((u.drawByte.2.iramSet (s.r - 1) u.drawByte.1).advance 2) := by
  have there : u.drawByte.2.implemented (s.r - 1) = true :=
    (implemented_congr s u (s.r - 1) platform).trans present
  rw [State.scratchUnderStack, r, writeIram_implemented _ _ _ there, ok_bind, outcome_ok]

/-- ANID and ORID (41_arithmetic_logic.md rules R194 and R195). -/
theorem logicAtDp_writes (present : s.implemented (s.r - 1) = true) (op : Byte → Byte → Byte) (n : Byte) :
    ∃ t, s.logicAtDp op n = .next t ∧ t.mem = (s.memWrite s.dp (op (s.memRead s.dp).1 n)).mem ∧
      t.outputs = (s.memWrite s.dp (op (s.memRead s.dp).1 n)).outputs ∧
      ZeroFlagOnly (op (s.memRead s.dp).1 n) s t ∧ t.dp = s.dp ∧ t.r = s.r ∧ t.pc = s.pc + 2 := by
  have r : ((s.memRead s.dp).2.memWrite s.dp (op (s.memRead s.dp).1 n)).r = s.r := by rw [memWrite_r, memRead_r]
  have platform : ((s.memRead s.dp).2.memWrite s.dp (op (s.memRead s.dp).1 n)).platform = s.platform := by
    rw [memWrite_platform, memRead_platform]
  refine ⟨_, scratch_present present r platform, memWrite_memRead_mem s s.dp s.dp _,
    memWrite_memRead_outputs s s.dp s.dp _, ⟨isZero_eq_decide _, ?c⟩, ?dp, r, ?pc⟩
  case c => exact (memWrite_c _ _ _).trans (memRead_c s s.dp)
  case dp => exact (memWrite_dp _ _ _).trans (memRead_dp s s.dp)
  case pc => exact congrArg (· + 2) ((memWrite_pc _ _ _).trans (memRead_pc s s.dp))

/-- TSID (41_arithmetic_logic.md rule R196). -/
theorem execTsid_tests (present : s.implemented (s.r - 1) = true) (n : Byte) :
    ∃ t, execTsid n s = .next t ∧ t.mem = s.mem ∧ t.outputs = s.outputs ∧
      ZeroFlagOnly ((s.memRead s.dp).1 &&& n) s t ∧ t.dp = s.dp ∧ t.r = s.r ∧ t.pc = s.pc + 2 :=
  ⟨_, scratch_present present (memRead_r s s.dp) (memRead_platform s s.dp), memRead_mem s s.dp,
    memRead_outputs s s.dp, ⟨isZero_eq_decide _, memRead_c s s.dp⟩, memRead_dp s s.dp, memRead_r s s.dp,
    congrArg (· + 2) (memRead_pc s s.dp)⟩

end

/-! ### The statements -/

/-- Settles O18: three sums and three differences on (P), which differ in the operand and the carry taken in. -/
theorem addAndSubtractOnP : Obligations.AddAndSubtractOnP := by
  intro s n present
  refine ⟨?adm, ?sbm, ?adcm, ?sbcm, ?adim, ?sbim, ?headers⟩
  case adm => exact arithAtP_add8 present (s.reg .a) false 1
  case sbm => exact arithAtP_sub8 present (s.reg .a) false 1
  case adcm => exact arithAtP_add8 present (s.reg .a) s.c 1
  case sbcm => exact arithAtP_sub8 present (s.reg .a) s.c 1
  case adim => exact arithAtP_add8 present n false 2
  case sbim => exact arithAtP_sub8 present n false 2
  case headers => exact ⟨⟨rfl, rfl⟩, ⟨rfl, rfl⟩, ⟨rfl, rfl⟩, ⟨rfl, rfl⟩, ⟨rfl, rfl⟩, rfl, rfl⟩

/-- Settles O19: the sum and the difference on A. -/
theorem addAndSubtractOnA : Obligations.AddAndSubtractOnA := fun s n =>
  ⟨arithA_add8 s n, arithA_sub8 s n, ⟨rfl, rfl⟩, rfl, rfl⟩

/-- Settles O20: the word read back from the two cells is the one the arithmetic unit gave. -/
theorem sixteenBitAddAndSubtract : Obligations.SixteenBitAddAndSubtract := by
  intro s low high
  refine ⟨?adb, ?sbb, ⟨rfl, rfl⟩, rfl, rfl⟩
  case adb =>
    obtain ⟨t, ran, word, c, z, p, pc⟩ := wordAtP_writes low high (add16 · s.ba) rfl
    refine ⟨t, ran, ?_, c, ?_, p, pc⟩ <;> rw [word]
    · exact BitVec.toNat_ofNat _ 16
    · exact z
  case sbb =>
    obtain ⟨t, ran, word, c, z, p, pc⟩ := wordAtP_writes low high (sub16 · s.ba) rfl
    refine ⟨t, ran, ?_, c.trans (sub16_carry _ _), ?_, p, pc⟩ <;> rw [word]
    · exact toNat_sub16 _ _
    · exact z

/-- Settles O21: logic writes (P), tests and compares write flags alone. -/
theorem logicAndComparesOnP : Obligations.LogicAndComparesOnP := by
  intro s n present
  refine ⟨?anma, ?orma, ?tsma, ?cpma, ?anim, ?orim, ?tsim, ?cpim, ?headers⟩
  case anma => exact logicAtP_writes present (· &&& ·) (s.reg .a) 1
  case orma => exact logicAtP_writes present (· ||| ·) (s.reg .a) 1
  case tsma => exact testAtP_tests present (s.reg .a) 1
  case cpma => exact compareAtP_compares present (s.reg .a) 1
  case anim => exact logicAtP_writes present (· &&& ·) n 2
  case orim => exact logicAtP_writes present (· ||| ·) n 2
  case tsim => exact testAtP_tests present n 2
  case cpim => exact compareAtP_compares present n 2
  case headers => exact ⟨⟨rfl, rfl⟩, ⟨rfl, rfl⟩, ⟨rfl, rfl⟩, ⟨rfl, rfl⟩, ⟨rfl, rfl⟩, ⟨rfl, rfl⟩, ⟨rfl, rfl⟩, rfl, rfl⟩

/-- Settles O22: the same on A, which exists in every state. -/
theorem logicAndComparesOnA : Obligations.LogicAndComparesOnA := by
  intro s n
  refine ⟨?ania, ?oria, ?tsia, ?cpia, ?headers⟩
  case ania => exact logicA_writes s (· &&& ·) n
  case oria => exact logicA_writes s (· ||| ·) n
  case tsia => exact ⟨_, rfl, rfl, ⟨isZero_eq_decide _, rfl⟩, rfl⟩
  case cpia => exact ⟨_, rfl, rfl, compares_sub8 rfl rfl, rfl⟩
  case headers => exact ⟨⟨rfl, rfl⟩, ⟨rfl, rfl⟩, ⟨rfl, rfl⟩, rfl, rfl⟩

/-- Settles O23: the scratch byte, written last, is in internal RAM and so leaves what the access to (DP) did. -/
theorem logicOnDp : Obligations.LogicOnDp := fun _ n present =>
  ⟨logicAtDp_writes present (· &&& ·) n, logicAtDp_writes present (· ||| ·) n, execTsid_tests present n, ⟨rfl, rfl⟩,
    ⟨rfl, rfl⟩, rfl, rfl⟩

/-- Settles O24: what A takes is the rotated byte, what C takes the bit shifted out. -/
theorem rotationsAndCarry : Obligations.RotationsAndCarry := by
  intro s
  refine ⟨?sl, ?sr, ⟨_, rfl, rfl, rfl, rfl⟩, ⟨_, rfl, rfl, rfl, rfl⟩, ⟨rfl, rfl⟩, ⟨rfl, rfl⟩, ⟨rfl, rfl⟩, rfl, rfl⟩
  case sl =>
    refine ⟨_, rfl, ?value, rotateLeft_carry (s.reg .a) s.c, ?zero, rfl⟩ <;>
      rw [reg_advance, reg_setFlags, reg_setReg_same]
    case value => exact toNat_rotateLeft (s.reg .a) s.c
    case zero => exact isZero_eq_decide _
  case sr =>
    have rotated : ((s.setReg .a (rotateRight (s.reg .a) s.c).value).reg .a).toNat =
        (s.reg .a).toNat / 2 + 128 * s.c.toNat := by
      rw [reg_setReg_same, toNat_rotateRight]
    exact ⟨_, rfl, rotated, rotateRight_carry (s.reg .a) s.c, rfl, rfl⟩

end Sys2Proof.Machine
end

section
/-! SUPPORT. Increments, decrements and pointer steps (42_inc_dec_pointer.md). A pointer step and an access to the
16-bit space do not see each other: the access of IXL, DXL, IYS and DYS is the one the state before the step makes. -/

namespace Sys2Proof.Machine

/-! ### Increments and decrements of a register -/

/-- INCx (42_inc_dec_pointer.md rule R220). -/
theorem countReg_add8 (s : State) (g : Reg) :
    ∃ t, s.countReg g add8 = .next t ∧ IsSum (s.reg g) 1 false (t.reg g) t ∧ t.q = regAddr g ∧
      t.p = s.p ∧ t.pc = s.pc + 1 := by
  have counted := reg_setReg_same s g (add8 (s.reg g) 1 false).value
  refine ⟨_, rfl, ?_, rfl, rfl, rfl⟩
  exact counted.symm ▸ isSum_add8 rfl rfl

/-- DECx (42_inc_dec_pointer.md rule R220). -/
theorem countReg_sub8 (s : State) (g : Reg) :
    ∃ t, s.countReg g sub8 = .next t ∧ IsDifference (s.reg g) 1 false (t.reg g) t ∧ t.q = regAddr g ∧
      t.p = s.p ∧ t.pc = s.pc + 1 := by
  have counted := reg_setReg_same s g (sub8 (s.reg g) 1 false).value
  refine ⟨_, rfl, ?_, rfl, rfl, rfl⟩
  exact counted.symm ▸ isDifference_sub8 rfl rfl

/-! ### The pair a pointer step writes -/

/-- A pair of two different registers holds the word written to it (10_state.md rule R25). -/
theorem pair_setPair {hi lo : Reg} (apart : hi ≠ lo) (s : State) (w : Word) : (s.setPair hi lo w).pair hi lo = w := by
  rw [State.pair, State.setPair, reg_setReg_same, reg_setReg, if_neg apart, reg_setReg_same, joinBytes_hiByte_loByte]

/-- A pair keeps its word when a register outside it is written. -/
theorem pair_setReg_of_ne {g hi lo : Reg} (notHi : g ≠ hi) (notLo : g ≠ lo) (s : State) (v : Byte) :
    (s.setReg g v).pair hi lo = s.pair hi lo := by
  rw [State.pair, reg_setReg, if_neg notHi, reg_setReg, if_neg notLo, State.pair]

/-! ### A pointer step and an access -/

/-- A data read after a pointer step gives what it would have given before it. -/
theorem memRead_stepPointer (s : State) (hi lo : Reg) (w a : Word) :
    (s.stepPointer hi lo w).memRead a = ((s.memRead a).1, (s.memRead a).2.stepPointer hi lo w) := by
  have answers : (s.stepPointer hi lo w).backing a = s.backing a := rfl
  unfold State.memRead
  rw [answers]
  cases s.backing a <;> rfl

/-- A data write after a pointer step does what it would have done before it. -/
theorem memWrite_stepPointer (s : State) (hi lo : Reg) (w a : Word) (v : Byte) :
    (s.stepPointer hi lo w).memWrite a v = (s.memWrite a v).stepPointer hi lo w := by
  have answers : (s.stepPointer hi lo w).backing a = s.backing a := rfl
  unfold State.memWrite
  rw [answers]
  cases s.backing a <;> rfl

/-- The load of IXL and DXL, from the state before the step (42_inc_dec_pointer.md rules R244 and R245). -/
theorem loadAfterStep_stepPointer (s : State) (hi lo : Reg) (w : Word) :
    (s.stepPointer hi lo w).loadAfterStep = ((s.memRead w).2.stepPointer hi lo w).setReg .a (s.memRead w).1 := by
  have there : (s.stepPointer hi lo w).dp = w := rfl
  rw [State.loadAfterStep, there, memRead_stepPointer]

/-! ### The three kinds of pointer step -/

section

variable {hi lo : Reg}

/-- IX, DX, IY and DY (42_inc_dec_pointer.md rules R239 to R243). -/
theorem stepPointer_steps (apart : hi ≠ lo) (s : State) (w : Word) :
    ∃ t, (.next ((s.stepPointer hi lo w).advance 1) : Result) = .next t ∧ t.pair hi lo = w ∧ t.dp = w ∧
      t.q = regAddr hi ∧ t.pc = s.pc + 1 ∧ FlagsKept s t :=
  ⟨_, rfl, pair_setPair apart s w, rfl, rfl, rfl, rfl, rfl⟩

/-- IXL and DXL: A is no part of the pair, so the load leaves it (42_inc_dec_pointer.md rules R244 and R245). -/
theorem stepPointer_loads (apart : hi ≠ lo) (notHi : .a ≠ hi) (notLo : .a ≠ lo) (s : State) (w : Word) :
    ∃ t, (.next ((s.stepPointer hi lo w).loadAfterStep.advance 1) : Result) = .next t ∧
      t.pair hi lo = w ∧ t.dp = w ∧ t.q = regAddr hi ∧ t.reg .a = (s.memRead w).1 ∧ t.pc = s.pc + 1 ∧
      FlagsKept s t := by
  rw [loadAfterStep_stepPointer]
  exact ⟨_, rfl, (pair_setReg_of_ne notHi notLo _ _).trans (pair_setPair apart _ w), rfl, rfl,
    reg_setReg_same _ .a _, congrArg (· + 1) (memRead_pc s w), memRead_flagsKept s w⟩

/-- IYS and DYS (42_inc_dec_pointer.md rules R246 and R247). -/
theorem stepPointer_stores (apart : hi ≠ lo) (s : State) (w : Word) (v : Byte) :
    ∃ t, (.next (((s.stepPointer hi lo w).memWrite w v).advance 1) : Result) = .next t ∧
      t.pair hi lo = w ∧ t.dp = w ∧ t.q = regAddr hi ∧ t.mem = (s.memWrite w v).mem ∧
      t.outputs = (s.memWrite w v).outputs ∧ t.pc = s.pc + 1 ∧ FlagsKept s t := by
  rw [memWrite_stepPointer]
  exact ⟨_, rfl, pair_setPair apart _ w, rfl, rfl, rfl, rfl, congrArg (· + 1) (memWrite_pc s w v),
    memWrite_flagsKept s w v⟩

end

/-! ### The statements -/

/-- Settles O25: each row of the list names the register its two instructions count in. -/
theorem incrementsAndDecrements : Obligations.IncrementsAndDecrements := by
  intro s inc dec g b row
  have counts : exec inc s = s.countReg g add8 ∧ exec dec s = s.countReg g sub8 ∧ HasHeader inc s [b] 4 ∧
      HasHeader dec s [b + 1] 4 := by
    fin_cases row <;> exact ⟨rfl, rfl, ⟨rfl, rfl⟩, rfl, rfl⟩
  obtain ⟨up, down, headers⟩ := counts
  rw [up, down]
  exact ⟨countReg_add8 s g, countReg_sub8 s g, headers⟩

/-- Settles O26: the three draws leave P, which steps as a 7-bit number. -/
theorem pointerPSteps : Obligations.PointerPSteps := by
  intro s
  refine ⟨⟨_, rfl, ?incp, rfl⟩, ⟨_, rfl, ?decp, rfl⟩, ⟨rfl, rfl⟩, rfl, rfl⟩
  case incp => exact BitVec.toNat_add s.p 1
  case decp => exact (BitVec.toNat_sub s.p 1).trans (congrArg (· % 128) (Nat.add_comm 127 _))

/-- Settles O27: one step of a pair, alone, before a load of A and before a store of A. -/
theorem pointerXAndYSteps : Obligations.PointerXAndYSteps := by
  intro s
  have xApart : Reg.xh ≠ .xl := by decide
  have yApart : Reg.yh ≠ .yl := by decide
  refine ⟨?ix, ?dx, ?iy, ?dy, ?ixl, ?dxl, ?iys, ?dys, ?headers⟩
  case ix => exact stepPointer_steps xApart s (s.x + 1)
  case dx => exact stepPointer_steps xApart s (s.x - 1)
  case iy => exact stepPointer_steps yApart s (s.y + 1)
  case dy => exact stepPointer_steps yApart s (s.y - 1)
  case ixl => exact stepPointer_loads xApart (by decide) (by decide) s (s.x + 1)
  case dxl => exact stepPointer_loads xApart (by decide) (by decide) s (s.x - 1)
  case iys => exact stepPointer_stores yApart s (s.y + 1) (s.reg .a)
  case dys => exact stepPointer_stores yApart s (s.y - 1) (s.reg .a)
  case headers => exact ⟨⟨rfl, rfl⟩, ⟨rfl, rfl⟩, ⟨rfl, rfl⟩, ⟨rfl, rfl⟩, ⟨rfl, rfl⟩, ⟨rfl, rfl⟩,
      ⟨rfl, rfl⟩, rfl, rfl⟩

end Sys2Proof.Machine
end

section
/-! SUPPORT. What a counted loop of 43_block_bcd.md reaches (rule R260): it completes where every pass does, with d at
&FF, and a property of the pass number that each pass carries on holds at its end. Then the block instructions on
internal RAM, their passes seen as changes of its cells. -/

namespace Sys2Proof.Machine

/-! ### Counted loops -/

/-- What no pass of a counted loop writes before it counts d down: the counter itself, pc, the flags, the platform. -/
structure Still (u t : State) : Prop where
  d : t.d = u.d
  pc : t.pc = u.pc
  flags : FlagsKept u t
  platform : t.platform = u.platform

/-- Counted down once more than its value says, a byte is &FF (43_block_bcd.md rule R260). -/
theorem counted_out (count : Byte) : count - BitVec.ofNat 8 (count.toNat + 1) = 0xFF := by
  bv_omega

/-- A loop that took `count` into d in state `s` stands in `t` after `k` passes. -/
structure Counted (s : State) (count : Byte) (k : Nat) (t : State) : Prop where
  d : t.d = count - BitVec.ofNat 8 k
  pc : t.pc = s.pc
  flags : FlagsKept s t
  platform : t.platform = s.platform

theorem Counted.start (s : State) (count : Byte) : Counted s count 0 { s with d := count } :=
  ⟨(BitVec.sub_zero count).symm, rfl, ⟨rfl, rfl⟩, rfl⟩

/-- One pass more: the body, then `d <- d - 1` (43_block_bcd.md rule R260). -/
theorem Counted.pass {s u t : State} {count : Byte} {k : Nat} (before : Counted s count k u) (still : Still u t) :
    Counted s count (k + 1) t.countDown where
  d := by
    show t.d - 1 = _
    rw [still.d, before.d]
    bv_omega
  pc := still.pc.trans before.pc
  flags := ⟨still.flags.1.trans before.flags.1, still.flags.2.trans before.flags.2⟩
  platform := still.platform.trans before.platform

/-- A loop that counts d down from the count register completes where each pass does (43_block_bcd.md rule R260). The
state is a part, `st`, of what the loop carries. -/
theorem countedLoop_completes {σ : Type} (st : σ → State) {s : State} {count : Byte} {body : σ → Except Fault σ}
    {x : σ} (entry : st x = { s with d := count }) (inv : Nat → σ → Prop) (start : inv 0 x)
    (pass : ∀ k ≤ count.toNat, ∀ w, (st w).platform = s.platform → inv k w →
      ∃ y u, body w = .ok y ∧ st y = u.countDown ∧ Still (st w) u ∧ inv (k + 1) y) :
    ∃ y, repeatBody body count.toNat x = .ok y ∧ (st y).d = 0xFF ∧ (st y).pc = s.pc ∧ FlagsKept s (st y) ∧
      inv (count.toNat + 1) y := by
  obtain ⟨y, ran, ⟨d, pc, flags, _⟩, holds⟩ := repeatBody_completes body
    (fun k w => Counted s count k (st w) ∧ inv k w) count.toNat 0 x
    (fun k _ le w ⟨counted, holds⟩ => by
      obtain ⟨y, u, once, down, still, next⟩ := pass k (by omega) w counted.platform holds
      exact ⟨y, once, down ▸ counted.pass still, next⟩)
    ⟨entry ▸ Counted.start s count, start⟩
  rw [Nat.zero_add] at d holds
  exact ⟨y, ran, d.trans (counted_out count), pc, flags, holds⟩

section

variable {s : State} {count : Byte} {body : State → Except Fault State} (inv : Nat → State → Prop)
  (free : ∀ k u d pc, inv k u → inv k { u with d := d, pc := pc }) (start : inv 0 s)
  (pass : ∀ k ≤ count.toNat, ∀ u, u.platform = s.platform → inv k u →
    ∃ t, body u = .ok t ∧ Still u t ∧ inv (k + 1) t)

include free start pass

/-- The block loop completes where each pass does (43_block_bcd.md rule R260). -/
theorem blockLoop_completes :
    ∃ t, s.blockLoop count body = .ok t ∧ t.d = 0xFF ∧ t.pc = s.pc ∧ FlagsKept s t ∧ inv (count.toNat + 1) t := by
  refine countedLoop_completes id rfl inv (free 0 s count s.pc start) fun k le u platform holds => ?_
  obtain ⟨t, once, still, next⟩ := pass k le u platform holds
  refine ⟨t.countDown, t, ?_, rfl, still, free (k + 1) t (t.d - 1) t.pc next⟩
  rw [once, ok_bind]

/-- The same for the whole block instruction. -/
theorem block_completes :
    ∃ t, s.block count body = .next t ∧ t.d = 0xFF ∧ t.pc = s.pc + 1 ∧ FlagsKept s t ∧ inv (count.toNat + 1) t := by
  obtain ⟨t, ran, d, pc, flags, holds⟩ := blockLoop_completes inv free start pass
  refine ⟨t.advance 1, ?_, d, congrArg (· + 1) pc, flags, free _ t t.d (t.pc + 1) holds⟩
  rw [State.block, ran, ok_bind, outcome_ok]

end

/-! ### Walks up internal RAM -/

/-- A byte a walk up meets exists in every state of the platform it starts on (10_state.md rule R29). -/
theorem State.existsUp.there {s u : State} {a p : Ptr} {n k : Nat} (present : s.existsUp a n) (le : k ≤ n)
    (platform : u.platform = s.platform) (stands : p = up a k) : u.implemented p = true := by
  rw [stands, implemented_congr s u _ platform]
  exact present k le

/-- The next address of a walk up. -/
theorem up_next {a p : Ptr} {k : Nat} (stands : p = up a k) : p + 1 = up a (k + 1) := by
  rw [stands, up_succ]

theorem up_add_one (a : Ptr) (k : Nat) : up (a + 1) k = up a (k + 1) := by
  rw [up_succ, up, up]
  bv_omega

/-- Within 128 bytes a walk up meets no byte twice. -/
theorem up_ne (a : Ptr) {j k : Nat} (hj : j < 128) (hk : k < 128) (other : j ≠ k) : up a j ≠ up a k := by
  rw [up, up]
  bv_omega

/-- 128 bytes of a walk up are all of internal RAM. -/
theorem exists_up_eq (a b : Ptr) : ∃ k < 128, up a k = b :=
  ⟨(b - a).toNat, (b - a).isLt, by rw [up]; bv_omega⟩

/-- Internal RAM after a write, as a function of the address. -/
theorem iramGet_iramSet_update (s : State) (a : Ptr) (v : Byte) :
    (s.iramSet a v).iramGet = Function.update s.iramGet a v := by
  funext b
  rw [iramGet_iramSet, Function.update_apply]
  exact if_congr eq_comm rfl rfl

/-! ### Blocks with P and Q -/

/-- The cells of internal RAM after MVW's pass at `p` and `q` (43_block_bcd.md rule R261). -/
def movedCells (p q : Ptr) (cells : Ptr → Byte) : Ptr → Byte := Function.update cells p (cells q)

/-- The cells of internal RAM after EXW's pass at `p` and `q` (43_block_bcd.md rule R263). -/
def exchangedCells (p q : Ptr) (cells : Ptr → Byte) : Ptr → Byte :=
  Function.update (Function.update cells p (cells q)) q (cells p)

/-- Where the bytes at P and Q exist, the pass makes this change of the cells and steps P and Q. -/
def ChangesCells (body : State → Except Fault State) (change : Ptr → Ptr → (Ptr → Byte) → Ptr → Byte) : Prop :=
  ∀ u : State, u.implemented u.p = true → u.implemented u.q = true →
    ∃ t, body u = .ok t ∧ Still u t ∧ t.p = u.p + 1 ∧ t.q = u.q + 1 ∧ t.iramGet = change u.p u.q u.iramGet

/-- MVW's pass (43_block_bcd.md rule R261). -/
theorem moveByte_changesCells : ChangesCells moveByte movedCells := by
  intro u atP atQ
  rw [moveByte, readIram_implemented u u.q atQ, ok_bind, setAtP_present atP rfl rfl, ok_bind]
  exact ⟨_, rfl, ⟨rfl, rfl, ⟨rfl, rfl⟩, rfl⟩, rfl, rfl, iramGet_iramSet_update u u.p _⟩

/-- EXW's pass: the byte at Q is written last (43_block_bcd.md rule R263). -/
theorem exchangeByte_changesCells : ChangesCells exchangeByte exchangedCells := by
  intro u atP atQ
  have stillQ (v : Byte) : (u.iramSet u.p v).implemented u.q = true := atQ
  rw [exchangeByte, atP_present atP, ok_bind, readIram_implemented u u.q atQ, ok_bind, setAtP_present atP rfl rfl,
    ok_bind, iramSet_q, writeIram_implemented _ u.q _ (stillQ _), ok_bind]
  refine ⟨_, rfl, ⟨rfl, rfl, ⟨rfl, rfl⟩, rfl⟩, rfl, rfl, ?_⟩
  rw [exchangedCells, ← iramGet_iramSet_update, ← iramGet_iramSet_update]
  rfl

/-- A block instruction whose passes step P and Q completes where both ranges exist, and a property of the cells that
each change carries on holds at its end. -/
theorem pairBlock_completes {s : State} {count : Byte} {body : State → Except Fault State}
    {change : Ptr → Ptr → (Ptr → Byte) → Ptr → Byte} (changes : ChangesCells body change)
    (rangeP : s.existsUp s.p count.toNat) (rangeQ : s.existsUp s.q count.toNat)
    (content : Nat → (Ptr → Byte) → Prop) (start : content 0 s.iramGet)
    (step : ∀ k ≤ count.toNat, ∀ cells, content k cells →
      content (k + 1) (change (up s.p k) (up s.q k) cells)) :
    ∃ t, s.block count body = .next t ∧ t.p = up s.p (count.toNat + 1) ∧ t.q = up s.q (count.toNat + 1) ∧
      t.d = 0xFF ∧ t.pc = s.pc + 1 ∧ FlagsKept s t ∧ content (count.toNat + 1) t.iramGet := by
  obtain ⟨t, ran, d, pc, flags, p, q, holds⟩ := block_completes (s := s) (count := count) (body := body)
    (fun k u => u.p = up s.p k ∧ u.q = up s.q k ∧ content k u.iramGet) (fun _ _ _ _ => id)
    ⟨(up_zero _).symm, (up_zero _).symm, start⟩ fun k le u platform ⟨p, q, holds⟩ => by
      obtain ⟨t, once, still, nextP, nextQ, cells⟩ :=
        changes u (rangeP.there le platform p) (rangeQ.there le platform q)
      refine ⟨t, once, still, nextP.trans (up_next p), nextQ.trans (up_next q), ?_⟩
      rw [cells, p, q]
      exact step k le _ holds
  exact ⟨t, ran, p, q, d, pc, flags, holds⟩

/-! ### What moves and exchanges leave in the cells -/

section

variable {old cells : Ptr → Byte} {p q : Ptr} {n k : Nat}

/-- After `k` passes of a copy: what has been written is the source, what is still to be read is untouched. -/
def CopiedUpTo (old : Ptr → Byte) (p q : Ptr) (n k : Nat) (cells : Ptr → Byte) : Prop :=
  (∀ j < k, cells (up p j) = old (up q j)) ∧ ∀ j ≤ n, k ≤ j → cells (up q j) = old (up q j)

/-- A move goes on with the copy where it meets neither a byte written before nor one still to be read. -/
theorem CopiedUpTo.step (short : n < 128) (unread : ∀ j k, j < k → k ≤ n → up p j ≠ up q k) (le : k ≤ n)
    (copied : CopiedUpTo old p q n k cells) :
    CopiedUpTo old p q n (k + 1) (movedCells (up p k) (up q k) cells) := by
  obtain ⟨written, ahead⟩ := copied
  refine ⟨fun j lt => ?_, fun j leN le' => ?_⟩
  · rcases Nat.lt_succ_iff_lt_or_eq.mp lt with earlier | rfl
    · rw [movedCells, Function.update_of_ne (up_ne p (by omega) (by omega) (by omega))]
      exact written j earlier
    · rw [movedCells, Function.update_self]
      exact ahead j le (Nat.le_refl j)
  · rw [movedCells, Function.update_of_ne (unread k j le' leN).symm]
    exact ahead j leN (by omega)

/-- With P one above Q each move takes on the byte the one before it wrote (43_block_bcd.md rule R260). -/
theorem smear_step {v : Byte} (smeared : ∀ j ≤ k, cells (up q j) = v) :
    ∀ j ≤ k + 1, movedCells (up (q + 1) k) (up q k) cells (up q j) = v := by
  intro j le
  rw [movedCells, up_add_one, Function.update_apply, smeared k (Nat.le_refl k)]
  split
  · rfl
  · rename_i other
    exact smeared j (Nat.lt_succ_iff.mp (Nat.lt_of_le_of_ne le fun same => other (same ▸ rfl)))

/-- After `k` passes of an exchange: the first `k` pairs have changed places, the others not. -/
def ExchangedUpTo (old : Ptr → Byte) (p q : Ptr) (n k : Nat) (cells : Ptr → Byte) : Prop :=
  ∀ j ≤ n, cells (up p j) = (if j < k then old (up q j) else old (up p j)) ∧
    cells (up q j) = if j < k then old (up p j) else old (up q j)

/-- Ranges that do not meet leave at least half of internal RAM to the other. -/
theorem short_of_apart (apart : ∀ j k, j ≤ n → k ≤ n → up p j ≠ up q k) : n < 128 := by
  obtain ⟨k, lt, meets⟩ := exists_up_eq p (up q 0)
  by_contra long
  exact apart k 0 (by omega) (Nat.zero_le n) meets

/-- An exchange goes on to the next pair and leaves the others alone. -/
theorem ExchangedUpTo.step (apart : ∀ j k, j ≤ n → k ≤ n → up p j ≠ up q k) (le : k ≤ n)
    (exchanged : ExchangedUpTo old p q n k cells) :
    ExchangedUpTo old p q n (k + 1) (exchangedCells (up p k) (up q k) cells) := by
  have short := short_of_apart apart
  intro j leN
  obtain ⟨atP, atQ⟩ := exchanged j leN
  by_cases here : j = k
  · subst here
    rw [if_neg (Nat.lt_irrefl j)] at atP atQ
    rw [exchangedCells, Function.update_of_ne (apart j j leN leN), Function.update_self, Function.update_self,
      if_pos (Nat.lt_succ_self j), if_pos (Nat.lt_succ_self j)]
    exact ⟨atQ, atP⟩
  · have sameSide : j < k + 1 ↔ j < k := by omega
    rw [exchangedCells, Function.update_of_ne (apart j k leN le),
      Function.update_of_ne (up_ne p (by omega) (by omega) here),
      Function.update_of_ne (up_ne q (by omega) (by omega) here), Function.update_of_ne (apart k j le leN).symm,
      if_congr sameSide rfl rfl, if_congr sameSide rfl rfl]
    exact ⟨atP, atQ⟩

end

/-! ### The statements -/

/-- MVW and MVB, with the count in either register (43_block_bcd.md rules R261 and R262). -/
theorem exec_move {i : Instr} {count : Reg} (row : (i, count) ∈ [(Instr.mvw, Reg.i), (.mvb, .j)]) (s : State) :
    exec i s = s.block (s.reg count) moveByte := by
  fin_cases row <;> rfl

/-- EXW and EXB (43_block_bcd.md rules R263 and R264). -/
theorem exec_exchange {i : Instr} {count : Reg} (row : (i, count) ∈ [(Instr.exw, Reg.i), (.exb, .j)]) (s : State) :
    exec i s = s.block (s.reg count) exchangeByte := by
  fin_cases row <;> rfl

/-- Settles O28: the moves carry the copy on where they overwrite no source byte still to be read. -/
theorem moveBlockCopies : Obligations.MoveBlockCopies := by
  rintro s i count n row rfl rangeP rangeQ
  obtain ⟨t, ran, p, q, d, pc, flags, copied⟩ := pairBlock_completes moveByte_changesCells rangeP rangeQ
    (fun k cells => (s.reg count).toNat < 128 →
      (∀ j k, j < k → k ≤ (s.reg count).toNat → up s.p j ≠ up s.q k) →
        CopiedUpTo s.iramGet s.p s.q (s.reg count).toNat k cells)
    (fun _ _ => ⟨fun _ lt => absurd lt (Nat.not_lt_zero _), fun _ _ _ => rfl⟩)
    (fun _ le _ copied short unread => (copied short unread).step short unread le)
  exact ⟨t, (exec_move row s).trans ran, p, q, d, pc, flags, fun short unread k le =>
    (copied short unread).1 k (Nat.lt_succ_of_le le)⟩

/-- Settles O29: from Q up to the byte written last every byte is the first. -/
theorem moveBlockSmears : Obligations.MoveBlockSmears := by
  rintro s i count n row rfl rangeP rangeQ next
  obtain ⟨t, ran, _, _, _, _, _, smeared⟩ := pairBlock_completes moveByte_changesCells rangeP rangeQ
    (fun k cells => ∀ j ≤ k, cells (up s.q j) = s.iramGet s.q)
    (fun j le => by rw [Nat.le_zero.mp le, up_zero])
    (fun _ _ _ smeared => next ▸ smear_step smeared)
  refine ⟨t, (exec_move row s).trans ran, fun k le => ?_⟩
  rw [next, up_add_one]
  exact smeared (k + 1) (Nat.succ_le_succ le)

/-- Settles O30: each pass exchanges the next pair of bytes. -/
theorem exchangeBlockSwaps : Obligations.ExchangeBlockSwaps := by
  rintro s i count n row rfl rangeP rangeQ
  obtain ⟨t, ran, p, q, d, pc, flags, exchanged⟩ := pairBlock_completes exchangeByte_changesCells rangeP rangeQ
    (fun k cells => (∀ j k, j ≤ (s.reg count).toNat → k ≤ (s.reg count).toNat → up s.p j ≠ up s.q k) →
      ExchangedUpTo s.iramGet s.p s.q (s.reg count).toNat k cells)
    (fun _ _ _ => ⟨rfl, rfl⟩)
    (fun _ le _ exchanged apart => (exchanged apart).step apart le)
  refine ⟨t, (exec_exchange row s).trans ran, p, q, d, pc, flags, fun apart k le => ?_⟩
  simpa only [if_pos (Nat.lt_succ_of_le le)] using exchanged apart k le

end Sys2Proof.Machine
end

section
/-! SUPPORT. The block instructions that meet the 16-bit space (43_block_bcd.md rules R265 to R271): reads of bytes that
memory holds, writes that only RAM takes, fills and DATA. -/

namespace Sys2Proof.Machine

/-! ### Accesses on the way -/

/-- The next address of a walk up the 16-bit space. -/
theorem above_next {a w : Word} {k : Nat} (stands : w = above a k) : w + 1 = above a (k + 1) := by
  rw [stands, above_succ]

/-- The walk of a count register meets no byte of the 16-bit space twice. -/
theorem above_ne (a : Word) {j k : Nat} (hj : j < 256) (hk : k < 256) (other : j ≠ k) : above a j ≠ above a k := by
  rw [above, above]
  bv_omega

/-- What a data read gives where memory holds a byte depends on nothing but that byte and the platform. -/
theorem memRead_value_fetchable {s u : State} {a : Word} (held : s.fetchable a = true)
    (platform : u.platform = s.platform) (byte : u.storedByte a = s.storedByte a) :
    (u.memRead a).1 = (s.memRead a).1 := by
  rw [State.fetchable] at held
  rw [State.memRead, State.memRead, backing_congr s u a platform]
  cases answers : s.backing a with
  | internalRom => rfl
  | ram => exact byte
  | rom => exact byte
  | device => rw [answers] at held; cases held
  | nothing => rw [answers] at held; cases held

/-- What a program-space read gives where memory holds a byte is that byte (20_memory.md rule R62). -/
theorem codeRead_value_fetchable {s u : State} {a : Word} (held : s.fetchable a = true)
    (platform : u.platform = s.platform) (byte : u.storedByte a = s.storedByte a) :
    (u.codeRead a).1 = s.storedByte a := by
  have heldStill : u.fetchable a = true := by
    rw [State.fetchable, backing_congr s u a platform]
    exact held
  rw [codeRead_fetchable heldStill]
  exact byte

/-- A byte of memory after a data write: only RAM takes it, and only at its address (20_memory.md rule R64). -/
theorem storedByte_memWrite (u : State) (a b : Word) (v : Byte) :
    (u.memWrite a v).storedByte b = if b = a ∧ u.backing b = .ram then v else u.storedByte b := by
  by_cases same : b = a
  · subst same
    rcases memWrite_cases u b v with ⟨ram, e⟩ | ⟨device, e⟩ | ⟨lost, _, e⟩ <;> rw [e]
    · rw [storedByte_storeByte, if_pos rfl, if_pos ⟨rfl, ram⟩]
    · rw [if_neg fun h => by rw [device] at h; cases h.2]
      rfl
    · rw [if_neg fun h => lost h.2]
  · rw [storedByte_memWrite_other same, if_neg fun h => same h.1]

theorem memRead_still (u : State) (a : Word) : Still u (u.memRead a).2 :=
  ⟨memRead_d u a, memRead_pc u a, memRead_flagsKept u a, memRead_platform u a⟩

theorem codeRead_still (u : State) (a : Word) : Still u (u.codeRead a).2 :=
  ⟨codeRead_d u a, codeRead_pc u a, codeRead_flagsKept u a, codeRead_platform u a⟩

theorem memWrite_still (u : State) (a : Word) (v : Byte) : Still u (u.memWrite a v) :=
  ⟨memWrite_d u a v, memWrite_pc u a v, memWrite_flagsKept u a v, memWrite_platform u a v⟩

theorem Still.trans {s t u : State} (first : Still s t) (second : Still t u) : Still s u :=
  ⟨second.d.trans first.d, second.pc.trans first.pc,
    ⟨second.flags.1.trans first.flags.1, second.flags.2.trans first.flags.2⟩, second.platform.trans first.platform⟩

/-- What lies outside the places an instruction may write is as it was. -/
theorem Within.samePlace {places : List Place} {s t : State} {r : Result} (within : Within places s r)
    (ran : r = .next t) (pl : Place) (out : pl ∉ places) : samePlace s t pl :=
  (within.writes t ran).samePlace pl out

/-! ### Passes -/

section

variable {u : State}

/-- MVWD's pass (43_block_bcd.md rule R265). -/
theorem moveExternalByte_present (present : u.implemented u.p = true) :
    moveExternalByte u = .ok { (u.memRead u.dp).2.iramSet u.p (u.memRead u.dp).1 with
      p := u.p + 1, dp := u.dp + 1 } := by
  rw [moveExternalByte, setAtP_present present (memRead_p u _) (memRead_platform u _), ok_bind]
  simp only [iramSet_p, iramSet_dp, memRead_p, memRead_dp]

/-- EXWD's pass (43_block_bcd.md rule R267). -/
theorem exchangeExternalByte_present (present : u.implemented u.p = true) :
    exchangeExternalByte u =
      .ok { ((u.memRead u.dp).2.memWrite u.dp (u.iramGet u.p)).iramSet u.p (u.memRead u.dp).1 with
        p := u.p + 1, dp := u.dp + 1 } := by
  have source : (u.memRead u.dp).2.atP = .ok (u.iramGet u.p) := by
    rw [State.atP, memRead_p, readIram_implemented _ _ ((implemented_memRead u _ _).trans present), iramGet_memRead]
  have p : ((u.memRead u.dp).2.memWrite u.dp (u.iramGet u.p)).p = u.p := (memWrite_p _ _ _).trans (memRead_p u _)
  have platform : ((u.memRead u.dp).2.memWrite u.dp (u.iramGet u.p)).platform = u.platform :=
    (memWrite_platform _ _ _).trans (memRead_platform u _)
  rw [exchangeExternalByte, source, ok_bind, setAtP_present present p platform, ok_bind]
  simp only [iramSet_p, iramSet_dp, memWrite_p, memWrite_dp, memRead_p, memRead_dp]

/-- FILM's pass (43_block_bcd.md rule R269). -/
theorem fillByte_present (present : u.implemented u.p = true) :
    fillByte u = .ok { u.iramSet u.p (u.reg .a) with p := u.p + 1 } := by
  rw [fillByte, setAtP_present present rfl rfl, ok_bind]
  rfl

/-- DATA's pass (43_block_bcd.md rule R271). -/
theorem copyCodeByte_present (present : u.implemented u.p = true) :
    copyCodeByte u = .ok ({ (u.codeRead u.ba).2.iramSet u.p (u.codeRead u.ba).1 with p := u.p + 1 }.setPair .b .a
      (((u.codeRead u.ba).2.iramSet u.p (u.codeRead u.ba).1).ba + 1)) := by
  rw [copyCodeByte, setAtP_present present (codeRead_p u _) (codeRead_platform u _), ok_bind]
  simp only [iramSet_p, codeRead_p]
  rfl

end

/-! ### Moves and exchanges with the 16-bit space -/

/-- What MVWD has copied after `k` passes (43_block_bcd.md rule R265). -/
def ReadUpTo (s : State) (k : Nat) (u : State) : Prop :=
  ∀ j < k, u.iramGet (up s.p j) = (s.memRead (above s.dp j)).1

/-- MVWD and MVBD complete where the destination exists. -/
theorem moveExternalBlock_completes {s : State} {count : Byte} (range : s.existsUp s.p count.toNat) :
    ∃ t, s.block count moveExternalByte = .next t ∧ t.d = 0xFF ∧ t.pc = s.pc + 1 ∧ FlagsKept s t ∧
      t.p = up s.p (count.toNat + 1) ∧ t.dp = above s.dp (count.toNat + 1) ∧ t.mem = s.mem ∧
      (count.toNat < 128 → (∀ k ≤ count.toNat, s.fetchable (above s.dp k) = true) →
        ReadUpTo s (count.toNat + 1) t) := by
  refine block_completes (fun k u => u.p = up s.p k ∧ u.dp = above s.dp k ∧ u.mem = s.mem ∧
      (count.toNat < 128 → (∀ k ≤ count.toNat, s.fetchable (above s.dp k) = true) → ReadUpTo s k u))
    (fun _ _ _ _ => id) ⟨(up_zero _).symm, (above_zero _).symm, rfl, fun _ _ _ lt => absurd lt (Nat.not_lt_zero _)⟩
    fun k le u platform ⟨p, dp, mem, read⟩ => ?_
  refine ⟨_, moveExternalByte_present (range.there le platform p), ?_, up_next p, above_next dp,
    (memRead_mem u u.dp).trans mem, fun short held j lt => ?_⟩
  · exact (memRead_still u u.dp).trans ⟨rfl, rfl, ⟨rfl, rfl⟩, rfl⟩
  · show ((u.memRead u.dp).2.iramSet u.p (u.memRead u.dp).1).iramGet (up s.p j) = _
    rw [iramGet_iramSet, iramGet_memRead, p, dp]
    rcases Nat.lt_succ_iff_lt_or_eq.mp lt with earlier | rfl
    · rw [if_neg (up_ne s.p (by omega) (by omega) (by omega))]
      exact read short held j earlier
    · rw [if_pos rfl]
      exact memRead_value_fetchable (held j le) platform (storedByte_congr s u _ mem)

/-- What EXWD has exchanged after `k` passes of `n + 1` (43_block_bcd.md rule R267). -/
def ExchangedOutsideUpTo (s : State) (n k : Nat) (u : State) : Prop :=
  ∀ j ≤ n, u.iramGet (up s.p j) = (if j < k then (s.memRead (above s.dp j)).1 else s.iramGet (up s.p j)) ∧
    u.storedByte (above s.dp j) =
      if j < k ∧ s.backing (above s.dp j) = .ram then s.iramGet (up s.p j) else s.storedByte (above s.dp j)

/-- EXWD's pass exchanges the next pair and leaves the others alone. -/
theorem ExchangedOutsideUpTo.step {s u : State} {n k : Nat} (short : n < 128) (le : k ≤ n)
    (held : s.fetchable (above s.dp k) = true) (platform : u.platform = s.platform) (p : u.p = up s.p k)
    (dp : u.dp = above s.dp k) (exchanged : ExchangedOutsideUpTo s n k u) :
    ExchangedOutsideUpTo s n (k + 1)
      (((u.memRead u.dp).2.memWrite u.dp (u.iramGet u.p)).iramSet u.p (u.memRead u.dp).1) := by
  intro j leN
  obtain ⟨inside, outside⟩ := exchanged j leN
  rw [iramGet_iramSet, iramGet_memWrite, iramGet_memRead, storedByte_iramSet, storedByte_memWrite,
    storedByte_memRead, backing_memRead, backing_congr s u _ platform, p, dp]
  by_cases here : j = k
  · subst here
    simp only [Nat.lt_irrefl, if_false, false_and] at inside outside
    simp only [if_true, true_and, Nat.lt_succ_self, inside, outside, and_true]
    exact memRead_value_fetchable held platform outside
  · have sameSide : j < k + 1 ↔ j < k := by omega
    have apart := up_ne s.p (j := k) (k := j) (by omega) (by omega) (Ne.symm here)
    have apartOutside := above_ne s.dp (j := j) (k := k) (by omega) (by omega) here
    simp only [if_neg apart, apartOutside, false_and, if_false, sameSide]
    exact ⟨inside, outside⟩

/-- EXWD and EXBD complete where the internal range exists. -/
theorem exchangeExternalBlock_completes {s : State} {count : Byte} (range : s.existsUp s.p count.toNat) :
    ∃ t, s.block count exchangeExternalByte = .next t ∧ t.d = 0xFF ∧ t.pc = s.pc + 1 ∧ FlagsKept s t ∧
      t.p = up s.p (count.toNat + 1) ∧ t.dp = above s.dp (count.toNat + 1) ∧
      (count.toNat < 128 → (∀ k ≤ count.toNat, s.fetchable (above s.dp k) = true) →
        ExchangedOutsideUpTo s count.toNat (count.toNat + 1) t) := by
  refine block_completes (fun k u => u.p = up s.p k ∧ u.dp = above s.dp k ∧
      (count.toNat < 128 → (∀ k ≤ count.toNat, s.fetchable (above s.dp k) = true) →
        ExchangedOutsideUpTo s count.toNat k u))
    (fun _ _ _ _ => id) ⟨(up_zero _).symm, (above_zero _).symm, fun _ _ _ _ => ⟨rfl, by simp⟩⟩
    fun k le u platform ⟨p, dp, exchanged⟩ => ?_
  refine ⟨_, exchangeExternalByte_present (range.there le platform p), ?_, up_next p, above_next dp,
    fun short held => (exchanged short held).step short le (held k le) platform p dp⟩
  exact ((memRead_still u u.dp).trans (memWrite_still _ _ _)).trans ⟨rfl, rfl, ⟨rfl, rfl⟩, rfl⟩

/-! ### Fills -/

/-- FILM completes where its range exists; A, read again in each pass, holds A even where the range covers it. -/
theorem fillBlock_completes {s : State} {count : Byte} (range : s.existsUp s.p count.toNat) :
    ∃ t, s.block count fillByte = .next t ∧ t.d = 0xFF ∧ t.pc = s.pc + 1 ∧ FlagsKept s t ∧
      t.p = up s.p (count.toNat + 1) ∧ t.reg .a = s.reg .a ∧
      ∀ j < count.toNat + 1, t.iramGet (up s.p j) = s.reg .a := by
  refine block_completes (fun k u => u.p = up s.p k ∧ u.reg .a = s.reg .a ∧
      ∀ j < k, u.iramGet (up s.p j) = s.reg .a)
    (fun _ _ _ _ => id) ⟨(up_zero _).symm, rfl, fun _ lt => absurd lt (Nat.not_lt_zero _)⟩
    fun k le u platform ⟨p, a, filled⟩ => ?_
  refine ⟨_, fillByte_present (range.there le platform p), ⟨rfl, rfl, ⟨rfl, rfl⟩, rfl⟩, up_next p, ?_,
    fun j lt => ?_⟩
  · show (u.iramSet u.p (u.reg .a)).reg .a = _
    rw [reg_iramSet, a, ite_self]
  · show (u.iramSet u.p (u.reg .a)).iramGet (up s.p j) = _
    rw [iramGet_iramSet, p, a]
    split
    · rfl
    · rename_i other
      exact filled j (Nat.lt_of_le_of_ne (Nat.lt_succ_iff.mp lt) fun same => other (same ▸ rfl))

/-- What FILD has filled after `k` passes of `n + 1` (43_block_bcd.md rule R270). -/
def FilledOutsideUpTo (s : State) (n k : Nat) (u : State) : Prop :=
  ∀ j ≤ n, u.storedByte (above s.dp j) =
    if j < k ∧ s.backing (above s.dp j) = .ram then s.reg .a else s.storedByte (above s.dp j)

/-- FILD completes in every state. -/
theorem fillExternalBlock_completes (s : State) (count : Byte) :
    ∃ t, s.block count fillExternalByte = .next t ∧ t.d = 0xFF ∧ t.pc = s.pc + 1 ∧ FlagsKept s t ∧
      t.dp = above s.dp (count.toNat + 1) ∧ t.reg .a = s.reg .a ∧
      FilledOutsideUpTo s count.toNat (count.toNat + 1) t := by
  refine block_completes (fun k u => u.dp = above s.dp k ∧ u.reg .a = s.reg .a ∧
      FilledOutsideUpTo s count.toNat k u)
    (fun _ _ _ _ => id) ⟨(above_zero _).symm, rfl, fun _ _ => by simp⟩ fun k le u platform ⟨dp, a, filled⟩ => ?_
  refine ⟨_, rfl, (memWrite_still u u.dp (u.reg .a)).trans ⟨rfl, rfl, ⟨rfl, rfl⟩, rfl⟩, ?_,
    (reg_memWrite u u.dp _ .a).trans a, fun j leN => ?_⟩
  · exact above_next ((memWrite_dp u u.dp _).trans dp)
  · have bound := count.isLt
    show (u.memWrite u.dp (u.reg .a)).storedByte (above s.dp j) = _
    rw [storedByte_memWrite, backing_congr s u _ platform, dp, a, filled j leN]
    by_cases here : j = k
    · subst here
      simp only [true_and, Nat.lt_succ_self, Nat.lt_irrefl, false_and, if_false]
    · have sameSide : j < k + 1 ↔ j < k := by omega
      have apart := above_ne s.dp (j := j) (k := k) (by omega) (by omega) here
      simp only [apart, false_and, if_false, sameSide]

/-! ### DATA -/

/-- Where DATA stands after `k` passes: B:A at the next source byte, the bytes before it copied (43_block_bcd.md rule
R271). -/
def CodeCopiedUpTo (s : State) (k : Nat) (u : State) : Prop :=
  u.ba = above s.ba k ∧ ∀ j < k, u.iramGet (up s.p j) = s.storedByte (above s.ba j)

/-- Internal RAM after B:A is written: a byte that is neither is as it was. -/
theorem iramGet_setPair_other {s : State} {hi lo : Reg} {a : Ptr} (notHi : a ≠ regAddr hi) (notLo : a ≠ regAddr lo)
    (w : Word) : (s.setPair hi lo w).iramGet a = s.iramGet a := by
  rw [State.setPair, iramGet_setReg, if_neg notHi.symm, iramGet_setReg, if_neg notLo.symm]

/-- DATA's pass copies the next byte where it covers neither A nor B. -/
theorem CodeCopiedUpTo.step {s u : State} {n k : Nat} (short : n < 128) (le : k ≤ n)
    (held : s.fetchable (above s.ba k) = true) (clear : ∀ k ≤ n, up s.p k ≠ regAddr .a ∧ up s.p k ≠ regAddr .b)
    (platform : u.platform = s.platform) (mem : u.mem = s.mem) (p : u.p = up s.p k)
    (copied : CodeCopiedUpTo s k u) :
    CodeCopiedUpTo s (k + 1)
      ({ (u.codeRead u.ba).2.iramSet u.p (u.codeRead u.ba).1 with p := u.p + 1 }.setPair .b .a
        (((u.codeRead u.ba).2.iramSet u.p (u.codeRead u.ba).1).ba + 1)) := by
  obtain ⟨ba, before⟩ := copied
  have notA : u.p ≠ regAddr .a := p ▸ (clear k le).1
  have notB : u.p ≠ regAddr .b := p ▸ (clear k le).2
  refine ⟨?_, fun j lt => ?_⟩
  · have kept : ((u.codeRead u.ba).2.iramSet u.p (u.codeRead u.ba).1).ba = u.ba := by
      rw [State.ba, State.pair, reg_iramSet, if_neg notB, reg_iramSet, if_neg notA, reg_codeRead, reg_codeRead]
      rfl
    rw [State.ba, pair_setPair (by decide), kept]
    exact above_next ba
  · rw [iramGet_setPair_other (clear j (by omega)).2 (clear j (by omega)).1]
    show ((u.codeRead u.ba).2.iramSet u.p (u.codeRead u.ba).1).iramGet (up s.p j) = _
    rw [iramGet_iramSet, iramGet_codeRead, p]
    rcases Nat.lt_succ_iff_lt_or_eq.mp lt with earlier | rfl
    · rw [if_neg (up_ne s.p (by omega) (by omega) (by omega))]
      exact before j earlier
    · rw [if_pos rfl, ba]
      exact codeRead_value_fetchable held platform (storedByte_congr s u _ mem)

/-- DATA's loop (43_block_bcd.md rule R271). -/
theorem dataLoop_completes {s : State} {count : Byte} (range : s.existsUp s.p count.toNat) :
    ∃ t, s.blockLoop count copyCodeByte = .ok t ∧ t.d = 0xFF ∧ t.pc = s.pc ∧ FlagsKept s t ∧
      t.p = up s.p (count.toNat + 1) ∧ t.mem = s.mem ∧
      (count.toNat < 128 → (∀ k ≤ count.toNat, s.fetchable (above s.ba k) = true) →
        (∀ k ≤ count.toNat, up s.p k ≠ regAddr .a ∧ up s.p k ≠ regAddr .b) →
        CodeCopiedUpTo s (count.toNat + 1) t) := by
  refine blockLoop_completes (fun k u => u.p = up s.p k ∧ u.mem = s.mem ∧
      (count.toNat < 128 → (∀ k ≤ count.toNat, s.fetchable (above s.ba k) = true) →
        (∀ k ≤ count.toNat, up s.p k ≠ regAddr .a ∧ up s.p k ≠ regAddr .b) → CodeCopiedUpTo s k u))
    (fun _ _ _ _ => id)
    ⟨(up_zero _).symm, rfl, fun _ _ _ => ⟨(above_zero _).symm, fun _ lt => absurd lt (Nat.not_lt_zero _)⟩⟩
    fun k le u platform ⟨p, mem, copied⟩ => ?_
  refine ⟨_, copyCodeByte_present (range.there le platform p), ?_, up_next p, (codeRead_mem u u.ba).trans mem,
    fun short held clear => (copied short held clear).step short le (held k le) clear platform mem p⟩
  exact (codeRead_still u u.ba).trans ⟨rfl, rfl, ⟨rfl, rfl⟩, rfl⟩

/-- DATA is its loop, then two draws into the flags (43_block_bcd.md rule R271). -/
theorem execData_of_loop {s u : State} (looped : s.blockLoop (s.reg .i) copyCodeByte = .ok u) :
    execData s =
      .next ((u.drawFlag.2.drawFlag.2.setFlags u.drawFlag.1 u.drawFlag.2.drawFlag.1).advance 1) := by
  rw [execData, looped, ok_bind, outcome_ok]

/-! ### The statements -/

/-- MVWD and MVBD, with the count in either register (43_block_bcd.md rules R265 and R266). -/
theorem exec_moveExternal {i : Instr} {count : Reg} (row : (i, count) ∈ [(Instr.mvwd, Reg.i), (.mvbd, .j)])
    (s : State) : exec i s = s.block (s.reg count) moveExternalByte := by
  fin_cases row <;> rfl

/-- EXWD and EXBD (43_block_bcd.md rules R267 and R268). -/
theorem exec_exchangeExternal {i : Instr} {count : Reg} (row : (i, count) ∈ [(Instr.exwd, Reg.i), (.exbd, .j)])
    (s : State) : exec i s = s.block (s.reg count) exchangeExternalByte := by
  fin_cases row <;> rfl

/-- Settles O31: the reads change neither memory nor, where it holds a byte, anything else. -/
theorem moveExternalBlockCopies : Obligations.MoveExternalBlockCopies := by
  rintro s i count n row rfl range
  obtain ⟨t, ran, d, pc, flags, p, dp, _, read⟩ := moveExternalBlock_completes range
  have q : t.q = s.q := (moveExternalBlock_within s _).samePlace ran .q (by simp [cellsUp])
  exact ⟨t, (exec_moveExternal row s).trans ran, p, dp, d, q, pc, flags,
    fun short held k le => read short held k (Nat.lt_succ_of_le le)⟩

/-- Settles O32: each pass exchanges the next pair, RAM alone taking the internal byte. -/
theorem exchangeExternalBlockSwaps : Obligations.ExchangeExternalBlockSwaps := by
  rintro s i count n row rfl range
  obtain ⟨t, ran, d, pc, flags, p, dp, exchanged⟩ := exchangeExternalBlock_completes range
  have q : t.q = s.q := (exchangeExternalBlock_within s _).samePlace ran .q (by simp [cellsUp, bytesUp])
  refine ⟨t, (exec_exchangeExternal row s).trans ran, p, dp, d, q, pc, flags, fun short held k le => ?_⟩
  simpa only [Nat.lt_succ_of_le le, if_true, true_and] using exchanged short held k le

/-- Settles O33: A is the same in every pass, even where FILM's range covers it. -/
theorem fillsStoreA : Obligations.FillsStoreA := by
  rintro s n rfl
  refine ⟨fun range => ?film, ?fild⟩
  case film =>
    obtain ⟨t, ran, d, pc, flags, p, _, filled⟩ := fillBlock_completes range
    exact ⟨t, ran, p, d, pc, flags, fun k le => filled k (Nat.lt_succ_of_le le)⟩
  case fild =>
    obtain ⟨t, ran, d, pc, flags, dp, _, filled⟩ := fillExternalBlock_completes s (s.reg .i)
    refine ⟨t, ran, dp, d, pc, flags, fun k le => ?_⟩
    simpa only [Nat.lt_succ_of_le le, true_and] using filled k le

/-- Settles O34: what the loop leaves, the draws into the flags leave. -/
theorem dataCopiesProgramSpace : Obligations.DataCopiesProgramSpace := by
  rintro s n rfl range
  obtain ⟨u, looped, d, pc, _, p, _, copied⟩ := dataLoop_completes range
  have ran := execData_of_loop looped
  have q := (execData_within s).samePlace ran .q (by simp [mayWrite, regPlace, cellsUp])
  have dp := (execData_within s).samePlace ran .dp (by simp [mayWrite, regPlace, cellsUp])
  exact ⟨_, ran, p, d, q, dp, congrArg (· + 1) pc, fun short held clear =>
    ⟨(copied short held clear).1, fun k le => (copied short held clear).2 k (Nat.lt_succ_of_le le)⟩⟩

end Sys2Proof.Machine
end

section
/-! SUPPORT. BCD strings and digit shifts (43_block_bcd.md rules R280 to R286) as arithmetic on the number a string
holds: each pass keeps an exact equation between the bytes already written, the bytes they were made from, and what is
carried to the next byte. -/

namespace Sys2Proof.Machine

/-! ### Numbers written as strings -/

/-- The number the first `k` digits `v` hold in base `base`, the least significant first. -/
def lowFirst (base : Nat) (v : Nat → Nat) (k : Nat) : Nat := ∑ j ∈ Finset.range k, v j * base ^ j

/-- The number the first `k` digits `v` hold in base `base`, the most significant first. -/
def highFirst (base : Nat) (v : Nat → Nat) : Nat → Nat
  | 0 => 0
  | k + 1 => v k + base * highFirst base v k

@[simp] theorem lowFirst_zero (base : Nat) (v : Nat → Nat) : lowFirst base v 0 = 0 := rfl

theorem lowFirst_succ (base : Nat) (v : Nat → Nat) (k : Nat) :
    lowFirst base v (k + 1) = lowFirst base v k + v k * base ^ k := Finset.sum_range_succ _ k

/-- The same with the least significant digit taken off. -/
theorem lowFirst_succ_low (base : Nat) (v : Nat → Nat) (k : Nat) :
    lowFirst base v (k + 1) = v 0 + base * lowFirst base (fun j => v (j + 1)) k := by
  rw [lowFirst, Finset.sum_range_succ', pow_zero, mul_one, Nat.add_comm, lowFirst, Finset.mul_sum]
  exact congrArg _ (Finset.sum_congr rfl fun j _ => by ring)

theorem lowFirst_congr {base : Nat} {v w : Nat → Nat} {k : Nat} (same : ∀ j < k, v j = w j) :
    lowFirst base v k = lowFirst base w k :=
  Finset.sum_congr rfl fun j lt => by rw [same j (Finset.mem_range.mp lt)]

theorem lowFirst_lt {base : Nat} {v : Nat → Nat} (digit : ∀ j, v j < base) (k : Nat) :
    lowFirst base v k < base ^ k := by
  induction k with
  | zero => exact Nat.one_pos
  | succ k ih =>
    calc lowFirst base v (k + 1) = lowFirst base v k + v k * base ^ k := lowFirst_succ base v k
      _ < base ^ k + v k * base ^ k := Nat.add_lt_add_right ih _
      _ = (v k + 1) * base ^ k := by ring
      _ ≤ base * base ^ k := Nat.mul_le_mul_right _ (digit k)
      _ = base ^ (k + 1) := by ring

theorem highFirst_congr {base : Nat} {v w : Nat → Nat} {k : Nat} (same : ∀ j < k, v j = w j) :
    highFirst base v k = highFirst base w k := by
  induction k with
  | zero => rfl
  | succ k ih => rw [highFirst, highFirst, same k (Nat.lt_succ_self k), ih fun j lt => same j (Nat.lt_succ_of_lt lt)]

/-! ### Walks down internal RAM -/

/-- A byte a walk down meets exists in every state of the platform it starts on (10_state.md rule R29). -/
theorem State.existsDown.there {s u : State} {a p : Ptr} {n k : Nat} (present : s.existsDown a n) (le : k ≤ n)
    (platform : u.platform = s.platform) (stands : p = down a k) : u.implemented p = true := by
  rw [stands, implemented_congr s u _ platform]
  exact present k le

/-- The next address of a walk down. -/
theorem down_next {a p : Ptr} {k : Nat} (stands : p = down a k) : p - 1 = down a (k + 1) := by
  rw [stands, down_succ]

theorem down_sub_one (a : Ptr) (k : Nat) : down (a - 1) k = down a (k + 1) := by
  rw [down_succ, down, down]
  bv_omega

/-- Within 128 bytes a walk down meets no byte twice. -/
theorem down_ne (a : Ptr) {j k : Nat} (hj : j < 128) (hk : k < 128) (other : j ≠ k) : down a j ≠ down a k := by
  rw [down, down]
  bv_omega

/-! ### The numbers of the statements -/

/-- The decimal number of the `k` bytes down from `a`, whatever stands at them. -/
def decimalOf (cells : Ptr → Byte) (a : Ptr) (k : Nat) : Nat := lowFirst 100 (fun j => bcdValue (cells (down a j))) k

/-- The decimal number of the statements, from its last byte. -/
theorem decimal_eq (s : State) (a : Ptr) (n : Nat) : s.decimal a n = decimalOf s.iramGet a (n + 1) := by
  induction n generalizing a with
  | zero => rw [State.decimal, decimalOf, lowFirst_succ, lowFirst_zero, pow_zero, mul_one, zero_add, down_zero]
  | succ n ih =>
    rw [State.decimal, ih, decimalOf, decimalOf, lowFirst_succ_low _ _ (n + 1), down_zero]
    simp only [down_sub_one]

/-- The base-256 number of a string walked down from its last byte. -/
theorem digits_eq_lowFirst (s : State) (a : Ptr) (n : Nat) :
    s.digits a n = lowFirst 256 (fun j => (s.iramGet (down a j)).toNat) (n + 1) := by
  induction n generalizing a with
  | zero => rw [State.digits, lowFirst_succ, lowFirst_zero, pow_zero, mul_one, zero_add, down_zero]
  | succ n ih =>
    rw [State.digits, ih, lowFirst_succ_low _ _ (n + 1), down_zero]
    simp only [down_sub_one]

/-- The base-256 number of a string walked up from its first byte. -/
theorem digits_eq_highFirst (s : State) (a : Ptr) (n : Nat) :
    s.digits (up a n) n = highFirst 256 (fun j => (s.iramGet (up a j)).toNat) (n + 1) := by
  induction n with
  | zero => rfl
  | succ n ih =>
    have before : up a (n + 1) - 1 = up a n := by rw [up_succ, BitVec.add_sub_cancel]
    rw [State.digits, before, ih]
    rfl

/-! ### Decimal bytes (43_block_bcd.md rule R280) -/

theorem toNat_hiNibble (v : Byte) : (hiNibble v).toNat = v.toNat / 16 := by
  rw [hiNibble, BitVec.extractLsb'_toNat, Nat.shiftRight_eq_div_pow]
  exact Nat.mod_eq_of_lt (Nat.div_lt_of_lt_mul v.isLt)

theorem toNat_loNibble (v : Byte) : (loNibble v).toNat = v.toNat % 16 := by
  rw [loNibble, BitVec.extractLsb'_toNat, Nat.shiftRight_zero]

/-- The value of the byte made from a number is the number. -/
theorem bcdValue_bcdByte {m : Nat} (lt : m < 100) : bcdValue (bcdByte m) = m := by
  rw [bcdValue, bcdByte, hiNibble_joinNibbles, loNibble_joinNibbles, BitVec.toNat_ofNat, BitVec.toNat_ofNat]
  omega

theorem isBcd_iff (x : Byte) : isBcd x = true ↔ (hiNibble x).toNat ≤ 9 ∧ (loNibble x).toNat ≤ 9 := by
  rw [isBcd, Bool.and_eq_true, decide_eq_true_iff, decide_eq_true_iff]
  rfl

theorem isBcd_bcdByte {m : Nat} (lt : m < 100) : isBcd (bcdByte m) = true := by
  rw [isBcd_iff, bcdByte, hiNibble_joinNibbles, loNibble_joinNibbles, BitVec.toNat_ofNat, BitVec.toNat_ofNat]
  omega

theorem bcdValue_lt {x : Byte} (decimal : isBcd x = true) : bcdValue x < 100 := by
  obtain ⟨hi, lo⟩ := (isBcd_iff x).mp decimal
  rw [bcdValue]
  omega

theorem bcdValue_zero : bcdValue 0 = 0 := by decide

theorem isBcd_zero : isBcd 0 = true := by decide

/-- A byte is zero where its decimal value is. -/
theorem isZero_eq_bcdValue (x : Byte) : isZero x = decide (bcdValue x = 0) := by
  rw [isZero_eq_decide, bcdValue, toNat_hiNibble, toNat_loNibble]
  exact decide_eq_decide.mpr (by bv_omega)

/-- One byte of decimal arithmetic is exact: with `sign` 1 the operand and the carry are added, with -1 they are taken
away, and a carry out stands for 100. -/
def DecimalOp (op : Byte → Byte → Bool → Byte × Bool) (sign : Int) : Prop :=
  ∀ x y cin, isBcd x = true → isBcd y = true → isBcd (op x y cin).1 = true ∧
    (bcdValue (op x y cin).1 : Int) - bcdValue x = sign * (bcdValue y + cin.toNat - 100 * (op x y cin).2.toNat)

/-- `bcdadd` of rule R280. -/
theorem bcdAdd_decimalOp : DecimalOp bcdAdd 1 := by
  intro x y cin hx hy
  have := bcdValue_lt hx
  have := bcdValue_lt hy
  have := Bool.toNat_le cin
  have lt : (bcdValue x + bcdValue y + cin.toNat) % 100 < 100 := Nat.mod_lt _ (by decide)
  refine ⟨isBcd_bcdByte lt, ?_⟩
  simp only [bcdAdd, bcdValue_bcdByte lt]
  by_cases past : 99 < bcdValue x + bcdValue y + cin.toNat
  · rw [decide_eq_true past, Bool.toNat_true]; omega
  · rw [decide_eq_false past, Bool.toNat_false]; omega

/-- `bcdsub` of rule R280. -/
theorem bcdSub_decimalOp : DecimalOp bcdSub (-1) := by
  intro x y cin hx hy
  have := bcdValue_lt hx
  have := bcdValue_lt hy
  have := Bool.toNat_le cin
  have lt : (((bcdValue x : Int) - bcdValue y - cin.toNat) % 100).toNat < 100 := by omega
  refine ⟨isBcd_bcdByte lt, ?_⟩
  simp only [bcdSub, bcdValue_bcdByte lt]
  by_cases past : (bcdValue x : Int) - bcdValue y - cin.toNat < 0
  · rw [decide_eq_true past, Bool.toNat_true]; omega
  · rw [decide_eq_false past, Bool.toNat_false]; omega

/-! ### The passes of a BCD string -/

/-- A pass from `w` to `u` wrote `res`, a byte and a carry, at P. -/
structure BcdRun.Wrote (w : BcdRun) (res : Byte × Bool) (u : BcdRun) : Prop where
  carry : u.carry = res.2
  allZero : u.allZero = (w.allZero && isZero res.1)
  cells : u.st.iramGet = Function.update w.st.iramGet w.st.p res.1

section

variable {w : BcdRun} (op : Byte → Byte → Bool → Byte × Bool)

/-- A byte of decimal arithmetic moves nothing but the draws. -/
theorem bcdOp_still (s : State) (x y : Byte) (cin : Bool) :
    Still s (s.bcdOp op x y cin).2 ∧ (s.bcdOp op x y cin).2.q = s.q := by
  rcases bcdOp_state s op x y cin with e | e <;> rw [e] <;> exact ⟨⟨rfl, rfl, ⟨rfl, rfl⟩, rfl⟩, rfl⟩

/-- The write of a BCD byte where the byte at P exists. -/
theorem writeByte_present (present : w.st.implemented w.st.p = true) (x y : Byte) :
    ∃ u, w.writeByte (w.st.bcdOp op x y w.carry) = .ok u ∧ Still w.st u.st ∧ u.st.p = w.st.p ∧ u.st.q = w.st.q ∧
      u.addend = 0 ∧ (isBcd x = true → isBcd y = true → w.Wrote (op x y w.carry) u) := by
  obtain ⟨still, q⟩ := bcdOp_still op w.st x y w.carry
  rw [BcdRun.writeByte, setAtP_present present (bcdOp_p w.st op x y w.carry) still.platform, ok_bind]
  refine ⟨_, rfl, still.trans ⟨rfl, rfl, ⟨rfl, rfl⟩, rfl⟩, bcdOp_p w.st op x y w.carry, q, rfl, fun hx hy => ?_⟩
  rw [bcdOp_decimal w.st op x y w.carry hx hy]
  exact ⟨rfl, rfl, iramGet_iramSet_update w.st w.st.p _⟩

/-- The pass of ADN and SBN (43_block_bcd.md rules R281 and R282). -/
theorem addendByte_present (present : w.st.implemented w.st.p = true) :
    ∃ y u, addendByte op w = .ok y ∧ y.st = u.countDown ∧ Still w.st u ∧ y.st.p = w.st.p - 1 ∧ y.addend = 0 ∧
      (isBcd (w.st.iramGet w.st.p) = true → isBcd w.addend = true →
        w.Wrote (op (w.st.iramGet w.st.p) w.addend w.carry) y) := by
  obtain ⟨u, wrote, still, p, _, addend, decimal⟩ := writeByte_present op present (w.st.iramGet w.st.p) w.addend
  rw [addendByte, atP_present present, ok_bind, wrote, ok_bind]
  refine ⟨_, { u.st with p := u.st.p - 1 }, rfl, rfl, still.trans ⟨rfl, rfl, ⟨rfl, rfl⟩, rfl⟩, congrArg (· - 1) p,
    addend, fun hx hy => ?_⟩
  obtain ⟨carry, allZero, cells⟩ := decimal hx hy
  exact ⟨carry, allZero, cells⟩

/-- The pass of ADW and SBW (43_block_bcd.md rules R283 and R284). -/
theorem stringByte_present (present : w.st.implemented w.st.p = true) (presentQ : w.st.implemented w.st.q = true) :
    ∃ y u, stringByte op w = .ok y ∧ y.st = u.countDown ∧ Still w.st u ∧ y.st.p = w.st.p - 1 ∧
      y.st.q = w.st.q - 1 ∧
      (isBcd (w.st.iramGet w.st.p) = true → isBcd (w.st.iramGet w.st.q) = true →
        w.Wrote (op (w.st.iramGet w.st.p) (w.st.iramGet w.st.q) w.carry) y) := by
  obtain ⟨u, wrote, still, p, q, _, decimal⟩ :=
    writeByte_present op present (w.st.iramGet w.st.p) (w.st.iramGet w.st.q)
  rw [stringByte, atP_present present, ok_bind, readIram_implemented w.st w.st.q presentQ, ok_bind, wrote, ok_bind]
  refine ⟨_, { u.st with p := u.st.p - 1, q := u.st.q - 1 }, rfl, rfl, still.trans ⟨rfl, rfl, ⟨rfl, rfl⟩, rfl⟩,
    congrArg (· - 1) p, congrArg (· - 1) q, fun hx hy => ?_⟩
  obtain ⟨carry, allZero, cells⟩ := decimal hx hy
  exact ⟨carry, allZero, cells⟩

end

/-! ### What a BCD string loop keeps -/

/-- After `k` passes over the string at P with the operand bytes `y`: the bytes still to come are untouched, those
written are decimal, they differ from what stood there by the operand up to here and the carry's weight, and the zero
test speaks of all of them. -/
structure DecimalUpTo (sign : Int) (s : State) (y : Nat → Byte) (n k : Nat) (w : BcdRun) : Prop where
  ahead : ∀ j ≤ n, k ≤ j → w.st.iramGet (down s.p j) = s.iramGet (down s.p j)
  written : ∀ j < k, isBcd (w.st.iramGet (down s.p j)) = true
  total : (decimalOf w.st.iramGet s.p k : Int) - decimalOf s.iramGet s.p k =
    sign * (lowFirst 100 (fun j => bcdValue (y j)) k - 100 ^ k * w.carry.toNat)
  zero : w.allZero = decide (decimalOf w.st.iramGet s.p k = 0)

/-- Before the first pass, with a carry of 0 (43_block_bcd.md rule R280). -/
theorem DecimalUpTo.start {sign : Int} {s : State} {y : Nat → Byte} {n : Nat} {w : BcdRun}
    (cells : w.st.iramGet = s.iramGet) (carry : w.carry = false) (allZero : w.allZero = true) :
    DecimalUpTo sign s y n 0 w where
  ahead _ _ _ := by rw [cells]
  written _ lt := absurd lt (Nat.not_lt_zero _)
  total := by simp [decimalOf, carry]
  zero := allZero

/-- The number written so far, after one byte more at its high end. -/
theorem decimalOf_update {p : Ptr} {k : Nat} (short : k < 128) (cells : Ptr → Byte) (v : Byte) :
    decimalOf (Function.update cells (down p k) v) p (k + 1) = decimalOf cells p k + bcdValue v * 100 ^ k := by
  have below : ∀ j < k, Function.update cells (down p k) v (down p j) = cells (down p j) := fun j lt =>
    Function.update_of_ne (down_ne p (by omega) short (by omega)) v cells
  rw [decimalOf, lowFirst_succ, Function.update_self, decimalOf, lowFirst_congr fun j lt => by rw [below j lt]]

/-- Each pass of an exact decimal operation goes on to the next byte (43_block_bcd.md rule R280). -/
theorem DecimalUpTo.step {sign : Int} {s : State} {y : Nat → Byte} {n k : Nat} {w u : BcdRun}
    {op : Byte → Byte → Bool → Byte × Bool} (isExact : DecimalOp op sign) (short : n < 128) (le : k ≤ n)
    (decimalX : isBcd (s.iramGet (down s.p k)) = true) (decimalY : isBcd (y k) = true) (p : w.st.p = down s.p k)
    (done : DecimalUpTo sign s y n k w) (wrote : w.Wrote (op (s.iramGet (down s.p k)) (y k) w.carry) u) :
    DecimalUpTo sign s y n (k + 1) u := by
  obtain ⟨ahead, written, total, zero⟩ := done
  obtain ⟨carry, allZero, cells⟩ := wrote
  obtain ⟨decimal, digit⟩ := isExact _ _ w.carry decimalX decimalY
  rw [p] at cells
  have number := decimalOf_update (p := s.p) (Nat.lt_of_le_of_lt le short) w.st.iramGet
    (op (s.iramGet (down s.p k)) (y k) w.carry).1
  refine ⟨fun j leN le' => ?ahead, fun j lt => ?written, ?total, ?zero⟩ <;> rw [cells]
  case ahead =>
    rw [Function.update_of_ne (down_ne s.p (by omega) (by omega) (by omega))]
    exact ahead j leN (by omega)
  case written =>
    rcases Nat.lt_succ_iff_lt_or_eq.mp lt with earlier | rfl
    · rw [Function.update_of_ne (down_ne s.p (by omega) (by omega) (by omega))]
      exact written j earlier
    · rw [Function.update_self]
      exact decimal
  case total =>
    have before : decimalOf s.iramGet s.p (k + 1) =
        decimalOf s.iramGet s.p k + bcdValue (s.iramGet (down s.p k)) * 100 ^ k := lowFirst_succ _ _ k
    rw [number, before, lowFirst_succ, carry]
    push_cast
    linear_combination total + 100 ^ k * digit
  case zero =>
    have weight : (100 : Nat) ^ k ≠ 0 := pow_ne_zero k (by decide)
    rw [allZero, zero, isZero_eq_bcdValue, ← Bool.decide_and, number]
    exact decide_eq_decide.mpr (by rw [Nat.add_eq_zero_iff, Nat.mul_eq_zero, or_iff_left weight])

/-- What a BCD string instruction leaves: decimal digits, the sum (`sign` 1) or the difference (-1) with the number
`operand` as a whole, C the carry or borrow of the last byte and Z the zero test of the string. -/
structure IsDecimalResult (sign : Int) (s : State) (n operand : Nat) (t : State) : Prop where
  decimal : t.isDecimal s.p n
  total : (t.decimal s.p n : Int) - s.decimal s.p n = sign * (operand - 100 ^ (n + 1) * t.c.toNat)
  zero : t.z = decide (t.decimal s.p n = 0)

/-- The loop's property at its end is the result of the instruction, whose last step writes C and Z. -/
theorem DecimalUpTo.result {sign : Int} {s t : State} {y : Nat → Byte} {n : Nat} {w : BcdRun}
    (done : DecimalUpTo sign s y n (n + 1) w) (cells : t.iramGet = w.st.iramGet) (c : t.c = w.carry)
    (z : t.z = w.allZero) : IsDecimalResult sign s n (lowFirst 100 (fun j => bcdValue (y j)) (n + 1)) t where
  decimal k le := by
    rw [cells]
    exact done.written k (Nat.lt_succ_of_le le)
  total := by
    rw [decimal_eq, decimal_eq, cells, c]
    exact done.total
  zero := by
    rw [decimal_eq, cells, z]
    exact done.zero

/-- A sum, without signs. -/
theorem IsDecimalResult.sum {s t : State} {n operand : Nat} (res : IsDecimalResult 1 s n operand t) :
    t.isDecimal s.p n ∧ t.decimal s.p n + 100 ^ (n + 1) * t.c.toNat = s.decimal s.p n + operand ∧
      t.z = decide (t.decimal s.p n = 0) := by
  refine ⟨res.decimal, ?_, res.zero⟩
  zify
  linear_combination res.total

/-- A difference, without signs. -/
theorem IsDecimalResult.difference {s t : State} {n operand : Nat} (res : IsDecimalResult (-1) s n operand t) :
    t.isDecimal s.p n ∧ t.decimal s.p n + operand = s.decimal s.p n + 100 ^ (n + 1) * t.c.toNat ∧
      t.z = decide (t.decimal s.p n = 0) := by
  refine ⟨res.decimal, ?_, res.zero⟩
  zify
  linear_combination res.total

/-! ### ADN and SBN -/

/-- The operand bytes of ADN and SBN: A for the first byte, 0 for the others (43_block_bcd.md rule R281). -/
def addendBytes (a : Byte) : Nat → Byte
  | 0 => a
  | _ + 1 => 0

/-- As a number they are A. -/
theorem lowFirst_addendBytes (a : Byte) (n : Nat) :
    lowFirst 100 (fun j => bcdValue (addendBytes a j)) (n + 1) = bcdValue a := by
  have rest : lowFirst 100 (fun j => bcdValue (addendBytes a (j + 1))) n = 0 :=
    Finset.sum_eq_zero fun _ _ => mul_eq_zero_of_left bcdValue_zero _
  rw [lowFirst_succ_low, rest]
  rfl

/-- They are decimal where A is. -/
theorem isBcd_addendBytes {a : Byte} (decimal : isBcd a = true) (k : Nat) : isBcd (addendBytes a k) = true := by
  cases k with
  | zero => exact decimal
  | succ k => exact isBcd_zero

/-- ADN and SBN complete where the string exists, and are decimal arithmetic on decimal operands. -/
theorem bcdAddend_completes {s : State} {op : Byte → Byte → Bool → Byte × Bool} {sign : Int}
    (isExact : DecimalOp op sign) (range : s.existsDown s.p (s.reg .i).toNat) :
    ∃ t, s.bcdAddend op = .next t ∧ t.p = down s.p ((s.reg .i).toNat + 1) ∧ t.d = 0xFF ∧ t.pc = s.pc + 1 ∧
      ((s.reg .i).toNat < 128 → s.isDecimal s.p (s.reg .i).toNat → isBcd (s.reg .a) = true →
        IsDecimalResult sign s (s.reg .i).toNat (bcdValue (s.reg .a)) t) := by
  obtain ⟨w, looped, d, pc, _, p, _, done⟩ := countedLoop_completes BcdRun.st (s := s) (body := addendByte op)
    (x := { st := { s with d := s.reg .i }, carry := false, allZero := true, addend := s.reg .a }) rfl
    (fun k w => w.st.p = down s.p k ∧ w.addend = addendBytes (s.reg .a) k ∧
      ((s.reg .i).toNat < 128 → s.isDecimal s.p (s.reg .i).toNat → isBcd (s.reg .a) = true →
        DecimalUpTo sign s (addendBytes (s.reg .a)) (s.reg .i).toNat k w))
    ⟨(down_zero _).symm, rfl, fun _ _ _ => .start rfl rfl rfl⟩
    fun k le w platform ⟨p, addend, done⟩ => by
      obtain ⟨y, u, once, counted, still, nextP, taken, wrote⟩ :=
        addendByte_present op (range.there le platform p)
      refine ⟨y, u, once, counted, still, nextP.trans (down_next p), taken, fun short decimal decimalA => ?_⟩
      have before := done short decimal decimalA
      have decimalY := isBcd_addendBytes decimalA k
      rw [p, before.ahead k le (Nat.le_refl k), addend] at wrote
      exact before.step isExact short le (decimal k le) decimalY p (wrote (decimal k le) decimalY)
  refine ⟨(w.st.setFlags w.carry w.allZero).advance 1, ?_, p, d, congrArg (· + 1) pc,
    fun short decimal decimalA => ?_⟩
  · rw [State.bcdAddend, State.bcdLoop, looped, ok_bind, outcome_ok]
  · have res := (done short decimal decimalA).result (t := (w.st.setFlags w.carry w.allZero).advance 1) rfl rfl rfl
    rwa [lowFirst_addendBytes] at res

/-! ### ADW and SBW -/

/-- The last step of Q (43_block_bcd.md rule R283). -/
theorem extraQ_eq_down {s u : State} {m : Nat} (q : u.q = down s.q m) (platform : u.platform = s.platform) :
    u.extraQ = down s.q (m + s.platform.bcdwQExtra.toNat) := by
  rw [State.extraQ, platform, q]
  cases s.platform.bcdwQExtra with
  | true => exact (down_succ s.q m).symm
  | false => rfl

/-- ADW and SBW complete where both strings exist, and are decimal arithmetic on decimal strings where no byte of the
one at Q is overwritten before it is read. -/
theorem bcdString_completes {s : State} {op : Byte → Byte → Bool → Byte × Bool} {sign : Int}
    (isExact : DecimalOp op sign) (rangeP : s.existsDown s.p (s.reg .i).toNat)
    (rangeQ : s.existsDown s.q (s.reg .i).toNat) :
    ∃ t, s.bcdString op = .next t ∧ t.p = down s.p ((s.reg .i).toNat + 1) ∧ t.d = 0xFF ∧ t.pc = s.pc + 1 ∧
      t.q = down s.q ((s.reg .i).toNat + 1 + s.platform.bcdwQExtra.toNat) ∧
      ((s.reg .i).toNat < 128 → s.isDecimal s.p (s.reg .i).toNat → s.isDecimal s.q (s.reg .i).toNat →
        (∀ j k, j < k → k ≤ (s.reg .i).toNat → down s.p j ≠ down s.q k) →
        IsDecimalResult sign s (s.reg .i).toNat (s.decimal s.q (s.reg .i).toNat) t) := by
  obtain ⟨w, looped, d, pc, _, p, q, done⟩ := countedLoop_completes BcdRun.st (s := s) (body := stringByte op)
    (x := { st := { s with d := s.reg .i }, carry := false, allZero := true, addend := s.reg .a }) rfl
    (fun k w => w.st.p = down s.p k ∧ w.st.q = down s.q k ∧
      ((s.reg .i).toNat < 128 → s.isDecimal s.p (s.reg .i).toNat → s.isDecimal s.q (s.reg .i).toNat →
        (∀ j k, j < k → k ≤ (s.reg .i).toNat → down s.p j ≠ down s.q k) →
        DecimalUpTo sign s (fun j => s.iramGet (down s.q j)) (s.reg .i).toNat k w ∧
          ∀ j ≤ (s.reg .i).toNat, k ≤ j → w.st.iramGet (down s.q j) = s.iramGet (down s.q j)))
    ⟨(down_zero _).symm, (down_zero _).symm, fun _ _ _ _ => ⟨.start rfl rfl rfl, fun _ _ _ => rfl⟩⟩
    fun k le w platform ⟨p, q, done⟩ => by
      obtain ⟨y, u, once, counted, still, nextP, nextQ, wrote⟩ :=
        stringByte_present op (rangeP.there le platform p) (rangeQ.there le platform q)
      refine ⟨y, u, once, counted, still, nextP.trans (down_next p), nextQ.trans (down_next q),
        fun short decimal decimalQ unread => ?_⟩
      obtain ⟨before, ahead⟩ := done short decimal decimalQ unread
      rw [p, q, before.ahead k le (Nat.le_refl k), ahead k le (Nat.le_refl k)] at wrote
      have now := wrote (decimal k le) (decimalQ k le)
      refine ⟨before.step isExact short le (decimal k le) (decimalQ k le) p now, fun j leN lt => ?_⟩
      rw [now.cells, p, Function.update_of_ne (unread k j lt leN).symm]
      exact ahead j leN (Nat.le_of_lt lt)
  have ran : s.bcdString op = .next (({ w.st with q := w.st.extraQ }.setFlags w.carry w.allZero).advance 1) := by
    rw [State.bcdString, State.bcdLoop, looped, ok_bind, outcome_ok]
  have platform : w.st.platform = s.platform := ((bcdString_within s op).writes _ ran).platform
  refine ⟨_, ran, p, d, congrArg (· + 1) pc, extraQ_eq_down q platform, fun short decimal decimalQ unread => ?_⟩
  rw [decimal_eq s s.q]
  exact (done short decimal decimalQ unread).1.result rfl rfl rfl

/-! ### Digit shifts -/

/-- A digit shift completes where each pass does, and a property of the cells and the digit carried, which each pass
carries on, holds at its end (43_block_bcd.md rules R285 and R286). -/
theorem digitShift_completes {s : State} {body : DigitRun → Except Fault DigitRun} (way : Nat → Ptr)
    (first : s.p = way 0) (content : Nat → (Ptr → Byte) → BitVec 4 → Prop) (start : content 0 s.iramGet 0)
    (pass : ∀ k ≤ (s.reg .i).toNat, ∀ w : DigitRun, w.st.platform = s.platform → w.st.p = way k →
      content k w.st.iramGet w.digit →
      ∃ y u, body w = .ok y ∧ y.st = u.countDown ∧ Still w.st u ∧ y.st.p = way (k + 1) ∧
        content (k + 1) y.st.iramGet y.digit) :
    ∃ t, s.digitShift body = .next t ∧ t.p = way ((s.reg .i).toNat + 1) ∧ t.d = 0xFF ∧ t.pc = s.pc + 1 ∧
      FlagsKept s t ∧ ∃ digit, content ((s.reg .i).toNat + 1) t.iramGet digit := by
  obtain ⟨w, looped, d, pc, flags, p, done⟩ := countedLoop_completes DigitRun.st (s := s) (body := body)
    (x := { st := { s with d := s.reg .i }, digit := 0 }) rfl
    (fun k w => w.st.p = way k ∧ content k w.st.iramGet w.digit) ⟨first, start⟩
    fun k le w platform ⟨p, holds⟩ => pass k le w platform p holds
  refine ⟨w.st.advance 1, ?_, p, d, congrArg (· + 1) pc, flags, w.digit, done⟩
  rw [State.digitShift, looped, ok_bind, outcome_ok]

section

variable {w : DigitRun} (present : w.st.implemented w.st.p = true)

include present

/-- SRW's pass (43_block_bcd.md rule R285). -/
theorem shiftRightByte_present :
    shiftRightByte w = .ok
      { st := { w.st.iramSet w.st.p (joinNibbles w.digit (hiNibble (w.st.iramGet w.st.p))) with
          p := w.st.p + 1 }.countDown
        digit := loNibble (w.st.iramGet w.st.p) } := by
  rw [shiftRightByte, atP_present present, ok_bind, setAtP_present present rfl rfl, ok_bind, iramSet_p]

/-- SLW's pass (43_block_bcd.md rule R286). -/
theorem shiftLeftByte_present :
    shiftLeftByte w = .ok
      { st := { w.st.iramSet w.st.p (joinNibbles (loNibble (w.st.iramGet w.st.p)) w.digit) with
          p := w.st.p - 1 }.countDown
        digit := hiNibble (w.st.iramGet w.st.p) } := by
  rw [shiftLeftByte, atP_present present, ok_bind, setAtP_present present rfl rfl, ok_bind, iramSet_p]

end

section

variable {old cells : Ptr → Byte} {p : Ptr} {n k : Nat} {t : BitVec 4}

/-- After `k` bytes of SRW: what has been written, with the digit carried after it, is what stood there. -/
def ShiftedRightUpTo (old : Ptr → Byte) (p : Ptr) (n k : Nat) (cells : Ptr → Byte) (t : BitVec 4) : Prop :=
  (∀ j ≤ n, k ≤ j → cells (up p j) = old (up p j)) ∧
    16 * highFirst 256 (fun j => (cells (up p j)).toNat) k + t.toNat =
      highFirst 256 (fun j => (old (up p j)).toNat) k

/-- The byte written takes the digit carried as its high one and hands on its low one. -/
theorem ShiftedRightUpTo.step (short : n < 128) (le : k ≤ n) (shifted : ShiftedRightUpTo old p n k cells t) :
    ShiftedRightUpTo old p n (k + 1)
      (Function.update cells (up p k) (joinNibbles t (hiNibble (cells (up p k))))) (loNibble (cells (up p k))) := by
  obtain ⟨ahead, number⟩ := shifted
  refine ⟨fun j leN lt => ?_, ?_⟩
  · rw [Function.update_of_ne (up_ne p (by omega) (by omega) (by omega))]
    exact ahead j leN (by omega)
  · have below : highFirst 256 (fun j => (Function.update cells (up p k)
        (joinNibbles t (hiNibble (cells (up p k)))) (up p j)).toNat) k =
          highFirst 256 (fun j => (cells (up p j)).toNat) k :=
      highFirst_congr fun j lt => by rw [Function.update_of_ne (up_ne p (by omega) (by omega) (by omega))]
    rw [highFirst, below, highFirst, ← number, Function.update_self, toNat_joinNibbles, toNat_hiNibble,
      toNat_loNibble, ahead k le (Nat.le_refl k)]
    omega

/-- After `k` bytes of SLW: what has been written, with the digit carried before it, is sixteen times what stood
there. -/
def ShiftedLeftUpTo (old : Ptr → Byte) (p : Ptr) (n k : Nat) (cells : Ptr → Byte) (t : BitVec 4) : Prop :=
  (∀ j ≤ n, k ≤ j → cells (down p j) = old (down p j)) ∧
    lowFirst 256 (fun j => (cells (down p j)).toNat) k + 256 ^ k * t.toNat =
      16 * lowFirst 256 (fun j => (old (down p j)).toNat) k

/-- The byte written takes the digit carried as its low one and hands on its high one. -/
theorem ShiftedLeftUpTo.step (short : n < 128) (le : k ≤ n) (shifted : ShiftedLeftUpTo old p n k cells t) :
    ShiftedLeftUpTo old p n (k + 1)
      (Function.update cells (down p k) (joinNibbles (loNibble (cells (down p k))) t))
      (hiNibble (cells (down p k))) := by
  obtain ⟨ahead, number⟩ := shifted
  refine ⟨fun j leN lt => ?_, ?_⟩
  · rw [Function.update_of_ne (down_ne p (by omega) (by omega) (by omega))]
    exact ahead j leN (by omega)
  · have below : lowFirst 256 (fun j => (Function.update cells (down p k)
        (joinNibbles (loNibble (cells (down p k))) t) (down p j)).toNat) k =
          lowFirst 256 (fun j => (cells (down p j)).toNat) k :=
      lowFirst_congr fun j lt => by rw [Function.update_of_ne (down_ne p (by omega) (by omega) (by omega))]
    have split : (old (down p k)).toNat = 16 * ((old (down p k)).toNat / 16) + (old (down p k)).toNat % 16 :=
      (Nat.div_add_mod _ 16).symm
    rw [lowFirst_succ, below, lowFirst_succ, Function.update_self, toNat_joinNibbles, toNat_hiNibble,
      toNat_loNibble, ahead k le (Nat.le_refl k)]
    linear_combination number - 16 * 256 ^ k * split

end

/-- SRW divides by 16 (43_block_bcd.md rule R285). -/
theorem execSrw_completes {s : State} (range : s.existsUp s.p (s.reg .i).toNat) :
    ∃ t, execSrw s = .next t ∧ t.p = up s.p ((s.reg .i).toNat + 1) ∧ t.d = 0xFF ∧ t.pc = s.pc + 1 ∧
      FlagsKept s t ∧ ((s.reg .i).toNat < 128 → t.digits (up s.p (s.reg .i).toNat) (s.reg .i).toNat =
        s.digits (up s.p (s.reg .i).toNat) (s.reg .i).toNat / 16) := by
  obtain ⟨t, ran, p, d, pc, flags, digit, shifted⟩ := digitShift_completes (s := s) (body := shiftRightByte)
    (up s.p) (up_zero _).symm
    (fun k cells digit => (s.reg .i).toNat < 128 → ShiftedRightUpTo s.iramGet s.p (s.reg .i).toNat k cells digit)
    (fun _ => ⟨fun _ _ _ => rfl, rfl⟩) fun k le w platform p shifted => by
      refine ⟨_, _, shiftRightByte_present (range.there le platform p), rfl, ⟨rfl, rfl, ⟨rfl, rfl⟩, rfl⟩, up_next p,
        fun short => ?_⟩
      have next := (shifted short).step short le
      rw [← p, ← iramGet_iramSet_update] at next
      exact next
  refine ⟨t, ran, p, d, pc, flags, fun short => ?_⟩
  have number := (shifted short).2
  have bound := digit.isLt
  rw [digits_eq_highFirst, digits_eq_highFirst]
  omega

/-- SLW multiplies by 16 and drops what leaves the string (43_block_bcd.md rule R286). -/
theorem execSlw_completes {s : State} (range : s.existsDown s.p (s.reg .i).toNat) :
    ∃ t, execSlw s = .next t ∧ t.p = down s.p ((s.reg .i).toNat + 1) ∧ t.d = 0xFF ∧ t.pc = s.pc + 1 ∧
      FlagsKept s t ∧ ((s.reg .i).toNat < 128 → t.digits s.p (s.reg .i).toNat =
        s.digits s.p (s.reg .i).toNat * 16 % 256 ^ ((s.reg .i).toNat + 1)) := by
  obtain ⟨t, ran, p, d, pc, flags, digit, shifted⟩ := digitShift_completes (s := s) (body := shiftLeftByte)
    (down s.p) (down_zero _).symm
    (fun k cells digit => (s.reg .i).toNat < 128 → ShiftedLeftUpTo s.iramGet s.p (s.reg .i).toNat k cells digit)
    (fun _ => ⟨fun _ _ _ => rfl, rfl⟩) fun k le w platform p shifted => by
      refine ⟨_, _, shiftLeftByte_present (range.there le platform p), rfl, ⟨rfl, rfl, ⟨rfl, rfl⟩, rfl⟩, down_next p,
        fun short => ?_⟩
      have next := (shifted short).step short le
      rw [← p, ← iramGet_iramSet_update] at next
      exact next
  refine ⟨t, ran, p, d, pc, flags, fun short => ?_⟩
  have number := (shifted short).2
  have bound := lowFirst_lt (base := 256) (fun j => (t.iramGet (down s.p j)).isLt) ((s.reg .i).toNat + 1)
  rw [digits_eq_lowFirst, digits_eq_lowFirst, Nat.mul_comm, ← number, Nat.add_mul_mod_self_left,
    Nat.mod_eq_of_lt bound]

/-! ### The statements -/

/-- Settles O36: one loop for both, its operation exact on decimal bytes. -/
theorem bcdAddendIsDecimalArithmetic : Obligations.BcdAddendIsDecimalArithmetic := by
  rintro s n rfl range
  refine ⟨?adn, ?sbn⟩
  case adn =>
    obtain ⟨t, ran, p, d, pc, res⟩ := bcdAddend_completes bcdAdd_decimalOp range
    exact ⟨t, ran, p, d, pc, fun short decimal decimalA => (res short decimal decimalA).sum⟩
  case sbn =>
    obtain ⟨t, ran, p, d, pc, res⟩ := bcdAddend_completes bcdSub_decimalOp range
    exact ⟨t, ran, p, d, pc, fun short decimal decimalA => (res short decimal decimalA).difference⟩

/-- Settles O37: the same loop with the bytes at Q as the operand. -/
theorem bcdStringIsDecimalArithmetic : Obligations.BcdStringIsDecimalArithmetic := by
  rintro s n rfl rangeP rangeQ
  refine ⟨?adw, ?sbw⟩
  case adw =>
    obtain ⟨t, ran, p, d, pc, q, res⟩ := bcdString_completes bcdAdd_decimalOp rangeP rangeQ
    exact ⟨t, ran, p, d, pc, q, fun short decimal decimalQ unread => (res short decimal decimalQ unread).sum⟩
  case sbw =>
    obtain ⟨t, ran, p, d, pc, q, res⟩ := bcdString_completes bcdSub_decimalOp rangeP rangeQ
    exact ⟨t, ran, p, d, pc, q, fun short decimal decimalQ unread => (res short decimal decimalQ unread).difference⟩

/-- Settles O38: the walk up carries the low digit on, the walk down the high one. -/
theorem digitShiftsMoveOneDigit : Obligations.DigitShiftsMoveOneDigit := by
  rintro s n rfl
  exact ⟨execSrw_completes, execSlw_completes⟩

end Sys2Proof.Machine
end

section
/-! SUPPORT. Jumps, LOOP, calls, RTN and the table jump (44_control_flow.md). A jump is one choice between two
addresses, a call one push of a word, and DTJ one walk over the entries of its table, three bytes each. -/

namespace Sys2Proof.Machine

/-! ### Jumps -/

/-- A jump goes to its target where its condition holds, else past itself, and writes no flag (44_control_flow.md rule
R300). -/
theorem jumpIf_jumps {taken : Bool} {cond : Prop} [Decidable cond] (test : taken = true ↔ cond) (s : State)
    (target length : Word) :
    ∃ t, (.next (s.jumpIf taken target length) : Result) = .next t ∧
      t.pc = (if cond then target else s.pc + length) ∧ FlagsKept s t := by
  cases taken with
  | true => exact ⟨_, rfl, (if_pos (test.mp rfl)).symm, rfl, rfl⟩
  | false => exact ⟨_, rfl, (if_neg fun holds => Bool.false_ne_true (test.mpr holds)).symm, rfl, rfl⟩

/-! ### LOOP -/

/-- One taken from a byte: a borrow where it was 0, zero where it was 1 (41_arithmetic_logic.md rule R170). -/
theorem sub8_one (v : Byte) :
    sub8 v 1 false = { value := v - 1, carry := decide (v = 0), zero := decide (v = 1) } := by
  have value : (sub8 v 1 false).value = v - 1 := by
    have whole := sub8_exact v 1 false
    have borrow := Bool.toNat_le (sub8 v 1 false).carry
    rw [Bool.toNat_false] at whole
    bv_omega
  have carry : (sub8 v 1 false).carry = decide (v = 0) := by
    rw [sub8_carry, Bool.toNat_false]
    exact decide_eq_decide.mpr (by bv_omega)
  rw [← value, ← carry, ← sub8_zero_eq_decide]

section

variable {s : State}

/-- LOOP where its counter exists and is not 0 (44_control_flow.md rule R316). -/
theorem execLoop_goesOn (present : s.implemented s.r = true) (counter : s.iramGet s.r ≠ 0) (n : Byte) :
    execLoop n s = .next { (s.iramSet s.r (s.iramGet s.r - 1)).setFlags false (decide (s.iramGet s.r = 1)) with
                           pc := backwardTarget s.pc n } := by
  simp only [execLoop, readIram_implemented s _ present, ok_bind, sub8_one, writeIram_implemented s _ _ present,
    decide_eq_false counter]
  rfl

/-- LOOP where its counter exists and is 0 (44_control_flow.md rule R316). -/
theorem execLoop_ends (present : s.implemented s.r = true) (counter : s.iramGet s.r = 0) (n : Byte) :
    execLoop n s = .next ({ (s.iramSet s.r 0xFF).setFlags true false with r := s.r + 1 }.advance 2) := by
  simp only [execLoop, readIram_implemented s _ present, ok_bind, sub8_one, writeIram_implemented s _ _ present,
    counter]
  rfl

/-! ### Calls -/

/-- `t` is `s` with a word on top of the stack, its high byte first (44_control_flow.md rule R320). -/
structure Pushed (s : State) (w : Word) (t : State) : Prop where
  high : t.iramGet (s.r - 1) = hiByte w
  low : t.iramGet (s.r - 2) = loByte w
  r : t.r = s.r - 2
  pc : t.pc = s.pc
  flags : FlagsKept s t

/-- A push where both bytes exist: they are different bytes, so the second leaves the first. -/
theorem pushWord_pushes (high : s.implemented (s.r - 1) = true) (low : s.implemented (s.r - 2) = true) (w : Word) :
    ∃ t, s.pushWord w = .ok t ∧ Pushed s w t := by
  have other : s.r - 2 ≠ s.r - 1 := by bv_omega
  refine ⟨_, (pushWord_eq_ok s _ w).mpr ⟨high, low, rfl⟩, ?_, iramGet_iramSet_same _ _ _, rfl, rfl, rfl, rfl⟩
  exact ((iramGet_iramSet _ _ _ _).trans (if_neg other)).trans (iramGet_iramSet_same s _ _)

/-- CALL and CAL where both bytes exist (44_control_flow.md rules R320 and R321). -/
theorem callTo_present (high : s.implemented (s.r - 1) = true) (low : s.implemented (s.r - 2) = true)
    (target length : Word) :
    ∃ u, Pushed s (s.pc + length) u ∧ s.callTo target length = .next { u with pc := target } := by
  obtain ⟨u, ran, pushed⟩ := pushWord_pushes high low (s.pc + length)
  exact ⟨u, pushed, by rw [State.callTo, ran, ok_bind, outcome_ok]⟩

/-- PTJ where both bytes exist (44_control_flow.md rule R323). -/
theorem execPtj_present (high : s.implemented (s.r - 1) = true) (low : s.implemented (s.r - 2) = true) (l : Byte)
    (nm : Word) : ∃ u, Pushed s nm u ∧ execPtj l nm s = .next ({ u with tj := some l }.advance 4) := by
  obtain ⟨u, ran, pushed⟩ := pushWord_pushes high low nm
  exact ⟨u, pushed, by rw [execPtj, ran, ok_bind, outcome_ok]⟩

/-! ### The table jump -/

/-- An address reached in two walks (20_memory.md rule R60). -/
theorem above_add (a : Word) (j k : Nat) : above a (j + k) = above a j + BitVec.ofNat 16 k := by
  rw [above, above, BitVec.ofNat_add, BitVec.add_assoc]

/-- After the last entry the search takes the default address (44_control_flow.md rule R324). -/
theorem searchTable_default {a : Word} {j : Nat} (high : s.fetchable (above a j) = true)
    (low : s.fetchable (above a (j + 1)) = true) (v : Byte) :
    searchTable v 0 (above a j) s = (joinBytes (s.storedByte (above a j)) (s.storedByte (above a (j + 1))), s) := by
  simp only [searchTable, ← above_succ, codeRead_fetchable high, codeRead_fetchable low]

/-- An entry whose first byte matches gives its address (44_control_flow.md rule R324). -/
theorem searchTable_match {a : Word} {j : Nat} {v : Byte} (key : s.fetchable (above a j) = true)
    (high : s.fetchable (above a (j + 1)) = true) (low : s.fetchable (above a (j + 2)) = true)
    (same : s.storedByte (above a j) = v) (n : Nat) :
    searchTable v (n + 1) (above a j) s =
      (joinBytes (s.storedByte (above a (j + 1))) (s.storedByte (above a (j + 2))), s) := by
  have lowAt : above a j + 2 = above a (j + 2) := (above_add a j 2).symm
  simp only [searchTable, ← above_succ, lowAt, codeRead_fetchable key, codeRead_fetchable high,
    codeRead_fetchable low, if_pos same]

/-- Any other entry is passed over, three bytes on (44_control_flow.md rule R324). -/
theorem searchTable_skip {a : Word} {j : Nat} {v : Byte} (key : s.fetchable (above a j) = true)
    (other : s.storedByte (above a j) ≠ v) (n : Nat) :
    searchTable v (n + 1) (above a j) s = searchTable v n (above a (j + 3)) s := by
  have nextAt : above a j + 3 = above a (j + 3) := (above_add a j 3).symm
  simp only [searchTable, codeRead_fetchable key, if_neg other, nextAt]

/-- The first `m` entries are passed over where none of them matches. -/
theorem searchTable_skips {a : Word} {v : Byte} {m : Nat} (keys : ∀ k < m, s.fetchable (above a (1 + 3 * k)) = true)
    (others : ∀ k < m, s.storedByte (above a (1 + 3 * k)) ≠ v) (n : Nat) :
    searchTable v (m + n) (a + 1) s = searchTable v n (above a (1 + 3 * m)) s := by
  induction m generalizing n with
  | zero => rw [Nat.zero_add]; rfl
  | succ m ih =>
    calc searchTable v (m + 1 + n) (a + 1) s
      _ = searchTable v (m + (n + 1)) (a + 1) s := by rw [Nat.add_assoc, Nat.add_comm 1 n]
      _ = searchTable v (n + 1) (above a (1 + 3 * m)) s :=
        ih (fun k lt => keys k (Nat.lt_succ_of_lt lt)) (fun k lt => others k (Nat.lt_succ_of_lt lt)) (n + 1)
      _ = searchTable v n (above a (1 + 3 * (m + 1))) s :=
        searchTable_skip (keys m (Nat.lt_succ_self m)) (others m (Nat.lt_succ_self m)) n

/-- The table of `count` entries after `a`, and the default address after the last, are held by memory. -/
def State.tableHeld (s : State) (a : Word) (count : Nat) : Prop :=
  ∀ k < 3 * count + 2, s.fetchable (above a (1 + k)) = true

/-- A byte of a held table, by its distance from the address before the table. -/
theorem State.tableHeld.there {a : Word} {count j : Nat} (held : s.tableHeld a count) (after : 0 < j)
    (inside : j < 3 * count + 3) : s.fetchable (above a j) = true := by
  have byte := held (j - 1) (by omega)
  rwa [Nat.add_sub_cancel' after] at byte

/-- The first entry that matches gives its address, whatever entries follow it (44_control_flow.md rule R324). -/
theorem searchTable_first {a : Word} {v : Byte} {count m : Nat} (held : s.tableHeld a count) (inside : m < count)
    (others : ∀ k < m, s.storedByte (above a (1 + 3 * k)) ≠ v) (same : s.storedByte (above a (1 + 3 * m)) = v) :
    (searchTable v count (a + 1) s).1 =
      joinBytes (s.storedByte (above a (2 + 3 * m))) (s.storedByte (above a (3 + 3 * m))) := by
  obtain ⟨further, rfl⟩ := Nat.exists_eq_add_of_lt inside
  rw [Nat.add_assoc m, searchTable_skips (fun k _ => held.there (by omega) (by omega)) others,
    searchTable_match (held.there (by omega) (by omega)) (held.there (by omega) (by omega))
      (held.there (by omega) (by omega)) same]
  simp only [Nat.add_right_comm 1 (3 * m)]

/-- Where no entry matches the search gives the default address (44_control_flow.md rule R324). -/
theorem searchTable_none {a : Word} {v : Byte} {count : Nat} (held : s.tableHeld a count)
    (others : ∀ k < count, s.storedByte (above a (1 + 3 * k)) ≠ v) :
    (searchTable v count (a + 1) s).1 =
      joinBytes (s.storedByte (above a (1 + 3 * count))) (s.storedByte (above a (2 + 3 * count))) := by
  rw [← Nat.add_zero count, searchTable_skips (fun k _ => held.there (by omega) (by omega)) others,
    searchTable_default (held.there (by omega) (by omega)) (held.there (by omega) (by omega))]
  simp only [Nat.add_zero, Nat.add_right_comm 1 (3 * count)]

/-- DTJ with TJ set goes where the search of its table leads (44_control_flow.md rule R324). -/
theorem execDtj_prepared {count : Byte} (prepared : s.tj = some count) :
    ∃ t, execDtj s = .next t ∧ t.iram = s.iram ∧ t.r = s.r ∧ t.tj = s.tj ∧
      t.pc = (searchTable (s.reg .a) count.toNat (s.pc + 1) s).1 := by
  have iram := searchTable_keeps (·.iram) (fun _ => rfl) (s.reg .a) count.toNat (s.pc + 1) s
  have r := searchTable_keeps (·.r) (fun _ => rfl) (s.reg .a) count.toNat (s.pc + 1) s
  have tj := searchTable_keeps (·.tj) (fun _ => rfl) (s.reg .a) count.toNat (s.pc + 1) s
  simp only [execDtj, prepared] at tj ⊢
  generalize searchTable (s.reg .a) count.toNat (s.pc + 1) s = found at iram r tj ⊢
  exact ⟨_, rfl, iram, r, tj, rfl⟩

end

/-! ### The statements -/

/-- Settles O43: the entries before the first match are passed over, and so are all of them where none matches. -/
theorem tableJumpTakesTheFirstMatch : Obligations.TableJumpTakesTheFirstMatch := by
  intro s
  refine ⟨rfl, fun unset => ?stops, fun count prepared => ?jumps⟩
  case stops =>
    show execDtj s = _
    rw [execDtj, unset, raise]
  case jumps =>
    obtain ⟨t, ran, iram, r, tj, pc⟩ := execDtj_prepared prepared
    exact ⟨t, ran, iram, r, tj, fun held =>
      ⟨fun m inside others same => pc.trans (searchTable_first held inside others same),
        fun others => pc.trans (searchTable_none held others)⟩⟩

/-- Settles O39: each is one jump from pc + 1, the condition Z or C, set or clear, or none. -/
theorem relativeJumps : Obligations.RelativeJumps := by
  intro s n
  have zClear : (!s.z) = true ↔ s.z = false := Iff.of_eq (Bool.not_eq_true' s.z)
  have cClear : (!s.c) = true ↔ s.c = false := Iff.of_eq (Bool.not_eq_true' s.c)
  have cycles {clear : Bool} {flag : Prop} [Decidable flag] (test : clear = true ↔ flag) :
      some (if clear then 7 else 4) = some (if flag then 7 else 4) := congrArg some (if_congr test rfl rfl)
  refine ⟨?jrnzp, ?jrnzm, ?jrncp, ?jrncm, ?jrp, ?jrm, ?jrzp, ?jrzm, ?jrcp, ?jrcm, ?headers⟩
  case jrnzp => exact jumpIf_jumps zClear s (forwardTarget s.pc n) 2
  case jrnzm => exact jumpIf_jumps zClear s (backwardTarget s.pc n) 2
  case jrncp => exact jumpIf_jumps cClear s (forwardTarget s.pc n) 2
  case jrncm => exact jumpIf_jumps cClear s (backwardTarget s.pc n) 2
  case jrp => exact ⟨_, rfl, rfl, rfl, rfl⟩
  case jrm => exact ⟨_, rfl, rfl, rfl, rfl⟩
  case jrzp => exact jumpIf_jumps Iff.rfl s (forwardTarget s.pc n) 2
  case jrzm => exact jumpIf_jumps Iff.rfl s (backwardTarget s.pc n) 2
  case jrcp => exact jumpIf_jumps Iff.rfl s (forwardTarget s.pc n) 2
  case jrcm => exact jumpIf_jumps Iff.rfl s (backwardTarget s.pc n) 2
  case headers => exact ⟨⟨rfl, cycles zClear⟩, ⟨rfl, cycles zClear⟩, ⟨rfl, cycles cClear⟩, ⟨rfl, cycles cClear⟩,
      ⟨rfl, rfl⟩, ⟨rfl, rfl⟩, ⟨rfl, rfl⟩, ⟨rfl, rfl⟩, ⟨rfl, rfl⟩, rfl, rfl⟩

/-- Settles O40: the same jump to the operand. -/
theorem absoluteJumps : Obligations.AbsoluteJumps := by
  intro s nm
  have zClear : (!s.z) = true ↔ s.z = false := Iff.of_eq (Bool.not_eq_true' s.z)
  have cClear : (!s.c) = true ↔ s.c = false := Iff.of_eq (Bool.not_eq_true' s.c)
  refine ⟨?jp, ?jpnz, ?jpnc, ?jpz, ?jpc, ?headers⟩
  case jp => exact ⟨_, rfl, rfl, rfl, rfl⟩
  case jpnz => exact jumpIf_jumps zClear s nm 3
  case jpnc => exact jumpIf_jumps cClear s nm 3
  case jpz => exact jumpIf_jumps Iff.rfl s nm 3
  case jpc => exact jumpIf_jumps Iff.rfl s nm 3
  case headers => exact ⟨⟨rfl, rfl⟩, ⟨rfl, rfl⟩, ⟨rfl, rfl⟩, ⟨rfl, rfl⟩, rfl, rfl⟩

/-- Settles O41: the counter's borrow tells the two cases apart, and so does the cycle count. -/
theorem loopCountsOnTheStack : Obligations.LoopCountsOnTheStack := by
  intro s n present
  refine ⟨fun counter => ?goesOn, fun counter => ?ends⟩
  case goesOn =>
    exact ⟨_, execLoop_goesOn present counter n, iramGet_iramSet_same s s.r _, rfl, rfl, rfl, rfl, rfl,
      congrArg some (if_neg counter)⟩
  case ends =>
    exact ⟨_, execLoop_ends present counter n, iramGet_iramSet_same s s.r _, rfl, rfl, rfl, rfl, rfl,
      congrArg some (if_pos counter)⟩

/-- Settles O42: CALL, CAL and PTJ are one push, RTN two reads. -/
theorem callsAndReturns : Obligations.CallsAndReturns := by
  intro s nm ln l
  refine ⟨fun high low => ⟨?call, ?cal, ?ptj⟩, fun low high => ?rtn, ⟨rfl, rfl⟩, ⟨rfl, rfl⟩, ⟨rfl, rfl⟩, rfl, rfl⟩
  case call =>
    obtain ⟨u, pushed, ran⟩ := callTo_present high low nm 3
    exact ⟨_, ran, pushed.high, pushed.low, pushed.r, rfl, pushed.flags⟩
  case cal =>
    obtain ⟨u, pushed, ran⟩ := callTo_present high low (ln.setWidth 16) 2
    exact ⟨_, ran, pushed.high, pushed.low, pushed.r, BitVec.toNat_setWidth_of_le (by decide), pushed.flags⟩
  case ptj =>
    obtain ⟨u, pushed, ran⟩ := execPtj_present high low l nm
    exact ⟨_, ran, pushed.high, pushed.low, pushed.r, rfl, congrArg (· + 4) pushed.pc, pushed.flags⟩
  case rtn =>
    exact ⟨_, execRtn_present s low high, loByte_joinBytes _ _, hiByte_joinBytes _ _, rfl, ⟨rfl, rfl⟩, rfl⟩

end Sys2Proof.Machine
end

section
/-! SUPPORT. Ports, TEST, waits and the undescribed first bytes (45_io_timing_misc.md). The two input instructions are
one sample with a port for a parameter, the four outputs are one read of a port byte, which every platform has, and
TEST is one identity between masks. -/

namespace Sys2Proof.Machine

/-! ### Inputs -/

/-- A sample of a port takes the next byte the environment supplies (45_io_timing_misc.md rule R340). -/
theorem portIn_supplied {s : State} {p : InPort} {v : Byte} {rest : List Byte} (front : s.pending p = v :: rest) :
    (s.portIn p).1 = v ∧ (s.portIn p).2.pending p = rest := by
  cases p <;>
  · rw [State.pending] at front
    rw [State.portIn, front]
    exact ⟨rfl, rfl⟩

/-- INA and INB: A is the sample, and every other cell of internal RAM is kept (45_io_timing_misc.md rules R341 and
R342). -/
theorem input_samples (s : State) (p : InPort) :
    ∃ t, s.input p = .next t ∧ ZeroFlagOnly (t.reg .a) s t ∧
      (∀ a, regAddr .a ≠ a → t.iramGet a = s.iramGet a) ∧ t.pc = s.pc + 1 ∧
      ∀ v rest, s.pending p = v :: rest → t.reg .a = v ∧ t.pending p = rest := by
  have sample : ((s.portIn p).2.setReg .a (s.portIn p).1).reg .a = (s.portIn p).1 := reg_setReg_same _ .a _
  refine ⟨_, rfl, ⟨?z, portIn_c s p⟩, fun a other => ?cell, congrArg (· + 1) (portIn_pc s p),
    fun v rest front => ?sampled⟩
  case z => exact (isZero_eq_decide _).trans (congrArg (fun v => decide (v = 0)) sample.symm)
  case cell =>
    calc ((s.portIn p).2.setReg .a (s.portIn p).1).iramGet a
      _ = (s.portIn p).2.iramGet a := (iramGet_setReg _ _ _ _).trans (if_neg other)
      _ = s.iramGet a := iramGet_congr s _ a (portIn_iram s p)
  case sampled =>
    obtain ⟨value, taken⟩ := portIn_supplied front
    refine ⟨sample.trans value, ?_⟩
    cases p <;> exact taken

/-! ### Outputs -/

/-- The port bytes exist on every platform (10_state.md rules R28 and R29). -/
theorem implemented_of_le_portBytes (s : State) {a : Ptr} (le : a ≤ 0x5F) : s.implemented a = true := by
  have below : ∀ top : IramTop, 0x5F ≤ topAddress top
    | .at5F => by decide
    | .at7F => by decide
  exact decide_eq_true (BitVec.le_trans le (below s.platform.iramTop))

/-- So an instruction that reads a port byte goes on with it (45_io_timing_misc.md rule R340). -/
theorem outcome_readPortByte (s : State) {a : Ptr} (le : a ≤ 0x5F) (next : Byte → State) :
    outcome (do let v ← s.readIram a; .ok (next v)) = .next (next (s.iramGet a)) := by
  rw [readIram_implemented s a (implemented_of_le_portBytes s le), ok_bind, outcome_ok]

/-! ### TEST -/

/-- A sample of the TEST signals takes the next byte the environment supplies (10_state.md rule R41). -/
theorem sampleTest_supplied {s : State} {v : Byte} {rest : List Byte} (front : s.inTest = v :: rest) :
    s.sampleTest = (v, { s with inTest := rest }) := by
  rw [State.sampleTest, front]

/-- Of the named bits, a byte completed from elsewhere outside them holds its own under every mask (10_state.md rule
R41). -/
theorem and_mask_and_named (named n v nc : Byte) :
    (v &&& named ||| nc &&& ~~~named) &&& n &&& named = v &&& n &&& named := by
  ext i h
  simp only [BitVec.getElem_and, BitVec.getElem_or, BitVec.getElem_not]
  cases named[i] with
  | false => rw [Bool.and_false, Bool.and_false]
  | true => simp only [Bool.not_true, Bool.and_false, Bool.or_false, Bool.and_true]

/-- A mask that selects no other bits selects named ones. -/
theorem and_named_eq_self {named n : Byte} (alone : n &&& ~~~named = 0) : n &&& named = n := by
  calc n &&& named
    _ = n &&& named ||| n &&& ~~~named := by rw [alone]; exact BitVec.or_zero.symm
    _ = n &&& (named ||| ~~~named) := BitVec.and_or_distrib_left.symm
    _ = n := by rw [BitVec.or_not_self, BitVec.and_allOnes]

/-- So under a mask of named bits alone the byte is itself. -/
theorem and_mask_of_named {named n : Byte} (alone : n &&& ~~~named = 0) (v nc : Byte) :
    (v &&& named ||| nc &&& ~~~named) &&& n = v &&& n := by
  have own := and_mask_and_named named n v nc
  rwa [BitVec.and_assoc, BitVec.and_assoc, and_named_eq_self alone] at own

/-- TEST samples once and writes Z alone (45_io_timing_misc.md rule R347). -/
theorem testIn_supplied {s : State} {v : Byte} {rest : List Byte} (front : s.inTest = v :: rest) :
    s.testIn.2.inTest = rest ∧ ∃ nc, s.testIn.1 = v &&& namedSignals ||| nc &&& ~~~namedSignals := by
  rw [State.testIn, sampleTest_supplied front]
  exact ⟨rfl, _, rfl⟩

/-! ### The statements -/

/-- Settles O44: each is the sample of its port, whose byte of internal RAM is not A. -/
theorem inputsSampleThePort : Obligations.InputsSampleThePort := by
  intro s
  refine ⟨?ina, ?inb, ⟨rfl, rfl⟩, rfl, rfl⟩
  case ina =>
    obtain ⟨t, ran, flags, cells, pc, sampled⟩ := input_samples s .ia
    exact ⟨t, ran, flags, cells _ (by decide), pc, sampled⟩
  case inb =>
    obtain ⟨t, ran, flags, cells, pc, sampled⟩ := input_samples s .ib
    exact ⟨t, ran, flags, cells _ (by decide), pc, sampled⟩

/-- Settles O45: each reads its port byte and drives it; OUTC's status is OFF before HLT. -/
theorem outputsDriveThePorts : Obligations.OutputsDriveThePorts := by
  intro s
  refine ⟨?outa, ?outb, ?outf, ?outc, ⟨rfl, rfl⟩, ⟨rfl, rfl⟩, ⟨rfl, rfl⟩, rfl, rfl⟩
  case outa => exact ⟨_, outcome_readPortByte s (by decide) _, rfl, rfl, rfl, rfl, rfl, rfl, rfl⟩
  case outb => exact ⟨_, outcome_readPortByte s (by decide) _, rfl, rfl, rfl, rfl, rfl, rfl, rfl⟩
  case outf =>
    have lines : ((s.iramGet 0x5E).extractLsb' 0 5).toNat = (s.iramGet 0x5E).toNat % 32 := by
      rw [BitVec.extractLsb'_toNat, Nat.shiftRight_zero]
    exact ⟨_, outcome_readPortByte s (by decide) _, lines, rfl, rfl, rfl, rfl, rfl, rfl⟩
  case outc => exact ⟨_, outcome_readPortByte s (by decide) _, rfl, rfl, rfl, rfl, ⟨rfl, rfl⟩, rfl⟩

/-- Settles O46: the NC bits are drawn outside the named ones, so no mask of named signals sees them. -/
theorem testSamplesTheSignals : Obligations.TestSamplesTheSignals := by
  intro s n
  refine ⟨⟨_, rfl, testIn_c s, testIn_iram s, congrArg (· + 2) (testIn_pc s), fun v rest front => ?sampled⟩, rfl, rfl⟩
  case sampled =>
    obtain ⟨taken, nc, sample⟩ := testIn_supplied front
    refine ⟨taken, fun alone => (isZero_eq_decide _).trans ?alone, fun high => (isZero_eq_decide _).trans ?high⟩
    case alone => rw [sample, and_mask_of_named alone]
    case high =>
      refine decide_eq_false fun zero => high ?_
      calc v &&& n &&& namedSignals
        _ = s.testIn.1 &&& n &&& namedSignals := by rw [sample, and_mask_and_named]
        _ = 0 := by rw [zero]; exact BitVec.zero_and

/-- Settles O47: the three no-operations write pc alone; WAITI draws P and Z and leaves d at &FF. -/
theorem noOperationsAndWaits : Obligations.NoOperationsAndWaits := by
  intro s n
  refine ⟨rfl, rfl, rfl, ?waiti, ⟨rfl, rfl⟩, ⟨rfl, rfl⟩, ⟨rfl, rfl⟩, rfl, rfl⟩
  case waiti => exact ⟨_, rfl, rfl, rfl, rfl, rfl, rfl, rfl, rfl⟩

/-- Settles O48: the byte of each undescribed instruction is its own, and the described ones are well formed. -/
theorem undescribedFirstBytesStop : Obligations.UndescribedFirstBytesStop := by
  intro s i undescribed
  cases i with
  | writ
  | undefined16 | undefined17 | undefined2E | undefined33 | undefined36
  | undefined3C | undefined3D | undefined3E | undefined3F | undefined5C | undefined5E
  | undefined68 | undefined6A | undefined6C | undefined6D | undefined6E | undefined6F
  | undefined72 | undefined73 | undefined76 | undefined77 | undefined7B
  | undefinedCD | undefinedCF | undefinedD7 | undefinedD9 | undefinedDC | undefinedDE => exact ⟨_, rfl, rfl, rfl⟩
  | _ => cases undescribed

end Sys2Proof.Machine
end

section
/-! SUPPORT. What stops an instruction (60_exceptions.md rule R381). Apart from DTJ and the undescribed first bytes the
pseudocode raises only where it meets internal RAM, and never at &5F or below (10_state.md rule R29). That the address
does not exist needs then no account of the state in which it was met: the platform has no byte above &5F, since where
it has them every described instruction completes. -/

namespace Sys2Proof.Machine

/-! ### Computations -/

/-- The computation answers, or it raises at an address of internal RAM that not every platform has. -/
inductive AnswersOrAbsent {α : Type} : Except Fault α → Prop
  | ok (x : α) : AnswersOrAbsent (.ok x)
  | absent (a : Ptr) (above : 0x5F < a) : AnswersOrAbsent (.error (.unimplementedIram a))

/-- The same of the outcome of an instruction: a next state or that fault, and no refusal. -/
inductive NextOrAbsent : Result → Prop
  | next (t : State) : NextOrAbsent (.next t)
  | absent (a : Ptr) (above : 0x5F < a) : NextOrAbsent (.fault (.unimplementedIram a))

theorem NextOrAbsent.outcome {x : Except Fault State} (h : AnswersOrAbsent x) : NextOrAbsent (outcome x) := by
  cases h with
  | ok t => exact .next t
  | absent a above => exact .absent a above

/-- An address that does not exist is above those every platform has (10_state.md rule R29). -/
theorem portBytes_lt_of_not_implemented {s : State} {a : Ptr} (missing : s.implemented a = false) : 0x5F < a := by
  by_contra le
  exact Bool.false_ne_true (missing.symm.trans (implemented_of_le_portBytes s (BitVec.not_lt.mp le)))

namespace AnswersOrAbsent

variable {α β : Type}

/-- The first part that raises ends the whole (60_exceptions.md rule R383). -/
theorem bind {x : Except Fault β} {f : β → Except Fault α} (first : AnswersOrAbsent x)
    (rest : ∀ b, AnswersOrAbsent (f b)) : AnswersOrAbsent (x >>= f) := by
  cases first with
  | ok b => exact rest b
  | absent a above => exact .absent a above

theorem readIram (s : State) (a : Ptr) : AnswersOrAbsent (s.readIram a) := by
  cases present : s.implemented a with
  | true => exact readIram_implemented s a present ▸ .ok _
  | false => exact (readIram_eq_error s a _).mpr ⟨present, rfl⟩ ▸ .absent a (portBytes_lt_of_not_implemented present)

theorem writeIram (s : State) (a : Ptr) (v : Byte) : AnswersOrAbsent (s.writeIram a v) := by
  cases present : s.implemented a with
  | true => exact writeIram_implemented s a v present ▸ .ok _
  | false => exact (writeIram_eq_error s a v _).mpr ⟨present, rfl⟩ ▸ .absent a (portBytes_lt_of_not_implemented present)

/-- A read of internal RAM on the way. -/
theorem read {s : State} {a : Ptr} {f : Byte → Except Fault α} (rest : ∀ v, AnswersOrAbsent (f v)) :
    AnswersOrAbsent (s.readIram a >>= f) :=
  bind (readIram s a) rest

/-- A write of internal RAM on the way. -/
theorem write {s : State} {a : Ptr} {v : Byte} {f : State → Except Fault α} (rest : ∀ t, AnswersOrAbsent (f t)) :
    AnswersOrAbsent (s.writeIram a v >>= f) :=
  bind (writeIram s a v) rest

/-- A loop raises what its passes raise. -/
theorem loop {body : α → Except Fault α} (pass : ∀ x, AnswersOrAbsent (body x)) (n : Nat) (x : α) :
    AnswersOrAbsent (repeatBody body n x) := by
  induction n generalizing x with
  | zero => exact pass x
  | succ n ih => exact bind (pass x) ih

theorem wordAtP (s : State) : AnswersOrAbsent s.wordAtP := .read fun _ => .read fun _ => .ok _

theorem setWordAtP (s : State) (w : Word) : AnswersOrAbsent (s.setWordAtP w) := .write fun _ => .write fun _ => .ok _

theorem pushWord (s : State) (w : Word) : AnswersOrAbsent (s.pushWord w) := .write fun _ => .write fun _ => .ok _

theorem blockLoop {body : State → Except Fault State} (pass : ∀ u, AnswersOrAbsent (body u)) (s : State)
    (count : Byte) : AnswersOrAbsent (s.blockLoop count body) :=
  loop (fun u => bind (pass u) fun _ => .ok _) _ _

end AnswersOrAbsent

/-! ### Shared meanings -/

namespace NextOrAbsent

theorem arithAtP (s : State) (op : Byte → Byte → Bool → Alu8) (y : Byte) (cin : Bool) (length : Word) :
    NextOrAbsent (s.arithAtP op y cin length) :=
  .outcome (.read fun _ => .write fun _ => .ok _)

theorem logicAtP (s : State) (op : Byte → Byte → Byte) (y : Byte) (length : Word) :
    NextOrAbsent (s.logicAtP op y length) :=
  .outcome (.read fun _ => .write fun _ => .ok _)

theorem testAtP (s : State) (y : Byte) (length : Word) : NextOrAbsent (s.testAtP y length) :=
  .outcome (.read fun _ => .ok _)

theorem compareAtP (s : State) (y : Byte) (length : Word) : NextOrAbsent (s.compareAtP y length) :=
  .outcome (.read fun _ => .ok _)

theorem logicAtDp (s : State) (op : Byte → Byte → Byte) (n : Byte) : NextOrAbsent (s.logicAtDp op n) :=
  .outcome (.write fun _ => .ok _)

/-- A block instruction raises what a pass of its body raises (43_block_bcd.md rule R260). -/
theorem block {body : State → Except Fault State} (pass : ∀ u, AnswersOrAbsent (body u)) (s : State) (count : Byte) :
    NextOrAbsent (s.block count body) :=
  .outcome (.bind (.blockLoop pass s count) fun _ => .ok _)

theorem moveBlock (s : State) (count : Byte) : NextOrAbsent (s.block count moveByte) :=
  block (fun _ => .read fun _ => .write fun _ => .ok _) s count

theorem exchangeBlock (s : State) (count : Byte) : NextOrAbsent (s.block count exchangeByte) :=
  block (fun _ => .read fun _ => .read fun _ => .write fun _ => .write fun _ => .ok _) s count

theorem moveExternalBlock (s : State) (count : Byte) : NextOrAbsent (s.block count moveExternalByte) :=
  block (fun _ => .write fun _ => .ok _) s count

theorem exchangeExternalBlock (s : State) (count : Byte) : NextOrAbsent (s.block count exchangeExternalByte) :=
  block (fun _ => .read fun _ => .write fun _ => .ok _) s count

theorem bcdAddend (s : State) (op : Byte → Byte → Bool → Byte × Bool) : NextOrAbsent (s.bcdAddend op) :=
  have pass (w : BcdRun) : AnswersOrAbsent (addendByte op w) :=
    .read fun _ => .bind (.write fun _ => .ok _) fun _ => .ok _
  .outcome (.bind (.loop pass _ _) fun _ => .ok _)

theorem bcdString (s : State) (op : Byte → Byte → Bool → Byte × Bool) : NextOrAbsent (s.bcdString op) :=
  have pass (w : BcdRun) : AnswersOrAbsent (stringByte op w) :=
    .read fun _ => .read fun _ => .bind (.write fun _ => .ok _) fun _ => .ok _
  .outcome (.bind (.loop pass _ _) fun _ => .ok _)

theorem digitShift {body : DigitRun → Except Fault DigitRun} (pass : ∀ w, AnswersOrAbsent (body w)) (s : State) :
    NextOrAbsent (s.digitShift body) :=
  .outcome (.bind (.loop pass _ _) fun _ => .ok _)

theorem callTo (s : State) (target length : Word) : NextOrAbsent (s.callTo target length) :=
  .outcome (.bind (.pushWord s _) fun _ => .ok _)

end NextOrAbsent

/-! ### Every instruction -/

/-- DTJ with TJ unset raises (44_control_flow.md rule R324). -/
theorem execDtj_unprepared {s : State} (unset : s.tj = none) : execDtj s = .fault (.tableJumpUnprepared s.pc) := by
  rw [execDtj, unset, raise]

/-- A described instruction, DTJ with TJ set, raises at internal RAM only: the instructions that meet it are listed,
and every other has a next state whatever the state. -/
theorem exec_nextOrAbsent (i : Instr) (s : State) (described : i.wellFormed = true)
    (prepared : i = .dtj → s.tj ≠ none) : NextOrAbsent (exec i s) := by
  cases i with
  | ldm | mvdm | pop => exact .outcome (.read fun _ => .ok _)
  | mvmd | readm | push | leave => exact .outcome (.write fun _ => .ok _)
  | exam => exact .outcome (.read fun _ => .write fun _ => .ok _)
  | adm | sbm | adcm | sbcm | adim | sbim => exact .arithAtP s _ _ _ _
  | anma | orma | anim | orim => exact .logicAtP s _ _ _
  | tsma | tsim => exact .testAtP s _ _
  | cpma | cpim => exact .compareAtP s _ _
  | adb | sbb => exact .outcome (.bind (.wordAtP s) fun _ => .bind (.setWordAtP s _) fun _ => .ok _)
  | anid | orid => exact .logicAtDp s _ _
  | tsid => exact .outcome (.write fun _ => .ok _)
  | mvw | mvb => exact .moveBlock s _
  | exw | exb => exact .exchangeBlock s _
  | mvwd | mvbd => exact .moveExternalBlock s _
  | exwd | exbd => exact .exchangeExternalBlock s _
  | film => exact .block (fun _ => .write fun _ => .ok _) s _
  | fild => exact .block (fun _ => .ok _) s _
  | data => exact .outcome (.bind (.blockLoop (fun _ => .write fun _ => .ok _) s _) fun _ => .ok _)
  | adn | sbn => exact .bcdAddend s _
  | adw | sbw => exact .bcdString s _
  | srw | slw => exact .digitShift (fun _ => .read fun _ => .write fun _ => .ok _) s
  | loop => exact .outcome (.read fun _ => .write fun _ => .ok _)
  | call | cal => exact .callTo s _ _
  | rtn => exact .outcome (.read fun _ => .read fun _ => .ok _)
  | ptj => exact .outcome (.bind (.pushWord s _) fun _ => .ok _)
  | dtj =>
    obtain ⟨count, set⟩ := Option.ne_none_iff_exists'.mp (prepared rfl)
    obtain ⟨t, ran, _⟩ := execDtj_prepared set
    rw [show exec .dtj s = .next t from ran]
    exact .next t
  | outa | outb | outf | outc => exact .outcome (.read fun _ => .ok _)
  | writ
  | undefined16 | undefined17 | undefined2E | undefined33 | undefined36
  | undefined3C | undefined3D | undefined3E | undefined3F | undefined5C | undefined5E
  | undefined68 | undefined6A | undefined6C | undefined6D | undefined6E | undefined6F
  | undefined72 | undefined73 | undefined76 | undefined77 | undefined7B
  | undefinedCD | undefinedCF | undefinedD7 | undefinedD9 | undefinedDC | undefinedDE => cases described
  | _ => exact .next _

/-- Where some described instruction stops, DTJ with TJ set, internal RAM ends at &5F: elsewhere each completes. -/
theorem not_implemented_of_fault {i : Instr} {s : State} {f : Fault} {a : Ptr} (described : i.wellFormed = true)
    (prepared : i = .dtj → s.tj ≠ none) (stop : exec i s = .fault f) (above : 0x5F < a) :
    s.implemented a = false := by
  cases top : s.platform.iramTop with
  | at5F =>
    rw [State.implemented, top]
    exact decide_eq_false (BitVec.not_le.mpr above)
  | at7F =>
    obtain ⟨t, ran⟩ := everyDescribedInstructionCompletes i s described top prepared
    cases ran.symm.trans stop

/-! ### The statement -/

/-- Settles O55: the undescribed first bytes, then DTJ with TJ unset, then the rest, which raise at internal RAM only. -/
theorem onlyTheNamedStops : Obligations.OnlyTheNamedStops := by
  intro i s
  cases described : i.wellFormed with
  | false =>
    obtain ⟨b, _, stop, _⟩ := undescribedFirstBytesStop s i described
    rw [stop]
    exact ⟨fun _ e => (nomatch e), fun f e => .inl ⟨b, rfl, by cases e; rfl⟩⟩
  | true =>
    by_cases unprepared : i = .dtj ∧ s.tj = none
    · obtain ⟨rfl, unset⟩ := unprepared
      rw [show exec .dtj s = .fault (.tableJumpUnprepared s.pc) from execDtj_unprepared unset]
      exact ⟨fun _ e => (nomatch e), fun f e => .inr (.inr ⟨rfl, unset, by cases e; rfl⟩)⟩
    · have prepared (dtj : i = .dtj) : s.tj ≠ none := fun unset => unprepared ⟨dtj, unset⟩
      have outcomes := exec_nextOrAbsent i s described prepared
      generalize ran : exec i s = result at outcomes ⊢
      cases outcomes with
      | next t => exact ⟨fun _ e => (nomatch e), fun _ e => (nomatch e)⟩
      | absent a above =>
        have missing := not_implemented_of_fault described prepared ran above
        exact ⟨fun _ e => (nomatch e), fun f e => .inr (.inl ⟨a, missing, by cases e; rfl⟩)⟩

end Sys2Proof.Machine
end

section
/-! SUPPORT. A byte placed in the internal ROM (20_memory.md rule R62, 70_reset_and_hazards.md rule R424). Placing it
commutes with every operation but a read of program space: a data read does not see it (R65), a data write falls on
another address (R64), and nothing else looks at memory. An instruction made of such operations then does the same with
the byte placed. -/

namespace Sys2Proof.Machine

/-! ### Operations -/

/-- Two cells may be written in either order: each is put before the first cell at or above its own address, and the
other write does not move that place. -/
theorem write_write_comm (m : Memory) {a b : Nat} (other : a ≠ b) (v w : Byte) :
    (m.write a v).write b w = (m.write b w).write a v := by
  induction m with
  | nil => grind [Memory.write]
  | cons cell m ih => grind [Memory.write]

theorem storeByte_storeByte_comm (s : State) {a b : Word} (other : a ≠ b) (v w : Byte) :
    (s.storeByte a v).storeByte b w = (s.storeByte b w).storeByte a v :=
  congrArg (fun m => { s with mem := m }) (write_write_comm s.mem (mt BitVec.eq_of_toNat_eq other) v w)

/-- What answers at an address other than as the internal ROM does not stand in it (20_memory.md rule R74). -/
theorem ne_of_not_internalRom {s : State} {a b : Word} (rom : a.toNat < 0x2000)
    (elsewhere : s.backing b ≠ .internalRom) : a ≠ b :=
  fun same => elsewhere (same ▸ (backing_eq_internalRom s a).mpr rom)

section

variable {a : Word} {v : Byte} (s : State)

/-- A data read does not look at the internal ROM: it gives the high byte of the address there (R65). -/
theorem memRead_storeByte (rom : a.toNat < 0x2000) (b : Word) :
    (s.storeByte a v).memRead b = ((s.memRead b).1, (s.memRead b).2.storeByte a v) := by
  simp only [State.memRead, backing_storeByte]
  cases answers : s.backing b with
  | ram | rom =>
    have other : a ≠ b := ne_of_not_internalRom rom (s := s) (by simp [answers])
    simp only [storedByte_storeByte, if_neg other]
  | internalRom | device | nothing => rfl

/-- A data write does not reach the internal ROM (R64). -/
theorem memWrite_storeByte (rom : a.toNat < 0x2000) (b : Word) (w : Byte) :
    (s.storeByte a v).memWrite b w = (s.memWrite b w).storeByte a v := by
  simp only [State.memWrite, backing_storeByte]
  cases answers : s.backing b with
  | ram => exact storeByte_storeByte_comm s (ne_of_not_internalRom rom (s := s) (by simp [answers])) v w
  | internalRom | rom | device | nothing => rfl

/-- A supplied input or a draw is no part of memory (45_io_timing_misc.md rule R340). -/
theorem portIn_storeByte (p : InPort) :
    (s.storeByte a v).portIn p = ((s.portIn p).1, (s.portIn p).2.storeByte a v) := by
  cases p with
  | ia =>
    simp only [State.portIn, storeByte_inIA]
    split <;> rfl
  | ib =>
    simp only [State.portIn, storeByte_inIB]
    split <;> rfl

/-- The same for TEST (10_state.md rule R41). -/
theorem testIn_storeByte : (s.storeByte a v).testIn = (s.testIn.1, s.testIn.2.storeByte a v) := by
  have sampled : (s.storeByte a v).sampleTest = (s.sampleTest.1, s.sampleTest.2.storeByte a v) := by
    simp only [State.sampleTest, storeByte_inTest]
    split <;> rfl
  rw [State.testIn, sampled]
  rfl

/-- Which way a jump goes is decided by the flags alone (44_control_flow.md rule R300). -/
theorem jumpIf_storeByte (taken : Bool) (target length : Word) :
    (s.storeByte a v).jumpIf taken target length = (s.jumpIf taken target length).storeByte a v := by
  cases taken <;> rfl

/-- Decimal arithmetic looks at its operands alone (43_block_bcd.md rule R280). -/
theorem bcdOp_storeByte (op : Byte → Byte → Bool → Byte × Bool) (x y : Byte) (cin : Bool) :
    (s.storeByte a v).bcdOp op x y cin = ((s.bcdOp op x y cin).1, (s.bcdOp op x y cin).2.storeByte a v) := by
  simp only [State.bcdOp]
  split <;> rfl

end

/-! ### Computations -/

/-- The second computation does what the first does: it raises the same fault, or its answer is the first's with `place`
applied. -/
inductive Follows {α : Type} (place : α → α) : Except Fault α → Except Fault α → Prop
  | ok (x : α) : Follows place (.ok x) (.ok (place x))
  | error (f : Fault) : Follows place (.error f) (.error f)

/-- A BCD loop's carried values with a byte placed in its state. -/
def BcdRun.placing (a : Word) (v : Byte) (w : BcdRun) : BcdRun := { w with st := w.st.storeByte a v }

theorem BcdRun.placing_st (a : Word) (v : Byte) (w : BcdRun) : (w.placing a v).st = w.st.storeByte a v := rfl

/-- A digit shift's carried values with a byte placed in its state. -/
def DigitRun.placing (a : Word) (v : Byte) (w : DigitRun) : DigitRun := { w with st := w.st.storeByte a v }

namespace Follows

variable {α β : Type} {place : α → α} {within : β → β} {a : Word} {v : Byte}

/-- A first part that follows, and a rest that follows from each of its answers. -/
theorem bind {x x' : Except Fault β} {f f' : β → Except Fault α} (first : Follows within x x')
    (rest : ∀ b, Follows place (f b) (f' (within b))) : Follows place (x >>= f) (x' >>= f') := by
  cases first with
  | ok b => exact rest b
  | error e => exact .error e

theorem readIram (s : State) (p : Ptr) : Follows id (s.readIram p) ((s.storeByte a v).readIram p) := by
  cases present : s.implemented p with
  | true =>
    rw [readIram_implemented s p present, readIram_implemented (s.storeByte a v) p present]
    exact .ok _
  | false =>
    rw [(readIram_eq_error s p _).mpr ⟨present, rfl⟩, (readIram_eq_error (s.storeByte a v) p _).mpr ⟨present, rfl⟩]
    exact .error _

theorem writeIram (s : State) (p : Ptr) (w : Byte) :
    Follows (·.storeByte a v) (s.writeIram p w) ((s.storeByte a v).writeIram p w) := by
  cases present : s.implemented p with
  | true =>
    rw [writeIram_implemented s p w present, writeIram_implemented (s.storeByte a v) p w present]
    exact .ok _
  | false =>
    rw [(writeIram_eq_error s p w _).mpr ⟨present, rfl⟩,
      (writeIram_eq_error (s.storeByte a v) p w _).mpr ⟨present, rfl⟩]
    exact .error _

/-- A read of internal RAM on the way. -/
theorem read {s : State} {p : Ptr} {f f' : Byte → Except Fault α} (rest : ∀ b, Follows place (f b) (f' b)) :
    Follows place (s.readIram p >>= f) ((s.storeByte a v).readIram p >>= f') :=
  bind (readIram s p) rest

/-- A write of internal RAM on the way. -/
theorem write {s : State} {p : Ptr} {w : Byte} {f f' : State → Except Fault α}
    (rest : ∀ t, Follows place (f t) (f' (t.storeByte a v))) :
    Follows place (s.writeIram p w >>= f) ((s.storeByte a v).writeIram p w >>= f') :=
  bind (writeIram s p w) rest

/-- A loop whose body follows from every start. -/
theorem loop {body : α → Except Fault α} (pass : ∀ x, Follows place (body x) (body (place x))) (n : Nat) (x : α) :
    Follows place (repeatBody body n x) (repeatBody body n (place x)) := by
  induction n generalizing x with
  | zero => exact pass x
  | succ n ih => exact bind (pass x) ih

theorem wordAtP (s : State) : Follows id s.wordAtP (s.storeByte a v).wordAtP := .read fun _ => .read fun _ => .ok _

theorem setWordAtP (s : State) (w : Word) :
    Follows (·.storeByte a v) (s.setWordAtP w) ((s.storeByte a v).setWordAtP w) :=
  .write fun _ => .write fun _ => .ok _

theorem pushWord (s : State) (w : Word) : Follows (·.storeByte a v) (s.pushWord w) ((s.storeByte a v).pushWord w) :=
  .write fun _ => .write fun _ => .ok _

/-- A block loop whose body follows from every state (43_block_bcd.md rule R260). -/
theorem blockLoop {body : State → Except Fault State}
    (pass : ∀ u : State, Follows (·.storeByte a v) (body u) (body (u.storeByte a v))) (s : State) (count : Byte) :
    Follows (·.storeByte a v) (s.blockLoop count body) ((s.storeByte a v).blockLoop count body) :=
  loop (place := (·.storeByte a v)) (fun u => bind (pass u) fun _ => .ok _) _ { s with d := count }

/-- The store of a BCD byte, whatever was computed (R280). -/
theorem writeByte (w : BcdRun) (res : Byte × Bool) (s : State) :
    Follows (BcdRun.placing a v) (w.writeByte (res, s)) ((w.placing a v).writeByte (res, s.storeByte a v)) :=
  write fun _ => .ok _

/-! The passes of the loops (43_block_bcd.md). -/

theorem moveByte (s : State) : Follows (·.storeByte a v) (moveByte s) (moveByte (s.storeByte a v)) :=
  .read fun _ => .write fun _ => .ok _

theorem exchangeByte (s : State) : Follows (·.storeByte a v) (exchangeByte s) (exchangeByte (s.storeByte a v)) :=
  .read fun _ => .read fun _ => .write fun _ => .write fun _ => .ok _

theorem moveExternalByte (rom : a.toNat < 0x2000) (s : State) :
    Follows (·.storeByte a v) (moveExternalByte s) (moveExternalByte (s.storeByte a v)) := by
  simp only [Machine.moveExternalByte, storeByte_dp, memRead_storeByte s rom]
  exact .write fun _ => .ok _

theorem exchangeExternalByte (rom : a.toNat < 0x2000) (s : State) :
    Follows (·.storeByte a v) (exchangeExternalByte s) (exchangeExternalByte (s.storeByte a v)) := by
  simp only [Machine.exchangeExternalByte, storeByte_dp, memRead_storeByte s rom, memWrite_storeByte _ rom]
  exact .read fun _ => .write fun _ => .ok _

theorem fillByte (s : State) : Follows (·.storeByte a v) (fillByte s) (fillByte (s.storeByte a v)) :=
  .write fun _ => .ok _

theorem fillExternalByte (rom : a.toNat < 0x2000) (s : State) :
    Follows (·.storeByte a v) (fillExternalByte s) (fillExternalByte (s.storeByte a v)) := by
  simp only [Machine.fillExternalByte, storeByte_dp, reg_storeByte, memWrite_storeByte s rom]
  exact .ok _

theorem addendByte (op : Byte → Byte → Bool → Byte × Bool) (w : BcdRun) :
    Follows (BcdRun.placing a v) (addendByte op w) (addendByte op (w.placing a v)) := by
  refine .read fun x => ?_
  rw [BcdRun.placing_st, bcdOp_storeByte]
  exact .bind (.writeByte w _ _) fun _ => .ok _

theorem stringByte (op : Byte → Byte → Bool → Byte × Bool) (w : BcdRun) :
    Follows (BcdRun.placing a v) (stringByte op w) (stringByte op (w.placing a v)) := by
  refine .read fun x => .read fun y => ?_
  rw [BcdRun.placing_st, bcdOp_storeByte]
  exact .bind (.writeByte w _ _) fun _ => .ok _

theorem shiftRightByte (w : DigitRun) :
    Follows (DigitRun.placing a v) (shiftRightByte w) (shiftRightByte (w.placing a v)) :=
  .read fun _ => .write fun _ => .ok _

theorem shiftLeftByte (w : DigitRun) :
    Follows (DigitRun.placing a v) (shiftLeftByte w) (shiftLeftByte (w.placing a v)) :=
  .read fun _ => .write fun _ => .ok _

end Follows

/-! ### Shared meanings -/

/-- The same of two outcomes of an instruction, the second with `v` placed at `a`. -/
inductive FollowsPlacing (a : Word) (v : Byte) : Result → Result → Prop
  | next (t : State) : FollowsPlacing a v (.next t) (.next (t.storeByte a v))
  | fault (f : Fault) : FollowsPlacing a v (.fault f) (.fault f)

namespace FollowsPlacing

variable {a : Word} {v : Byte} (s : State)

theorem outcome {x x' : Except Fault State} (h : Follows (·.storeByte a v) x x') :
    FollowsPlacing a v (outcome x) (outcome x') := by
  cases h with
  | ok t => exact .next t
  | error f => exact .fault f

theorem arithAtP (op : Byte → Byte → Bool → Alu8) (y : Byte) (cin : Bool) (length : Word) :
    FollowsPlacing a v (s.arithAtP op y cin length) ((s.storeByte a v).arithAtP op y cin length) :=
  .outcome (.read fun _ => .write fun _ => .ok _)

theorem logicAtP (op : Byte → Byte → Byte) (y : Byte) (length : Word) :
    FollowsPlacing a v (s.logicAtP op y length) ((s.storeByte a v).logicAtP op y length) :=
  .outcome (.read fun _ => .write fun _ => .ok _)

theorem testAtP (y : Byte) (length : Word) :
    FollowsPlacing a v (s.testAtP y length) ((s.storeByte a v).testAtP y length) :=
  .outcome (.read fun _ => .ok _)

theorem compareAtP (y : Byte) (length : Word) :
    FollowsPlacing a v (s.compareAtP y length) ((s.storeByte a v).compareAtP y length) :=
  .outcome (.read fun _ => .ok _)

/-- ANID and ORID read and write the byte at DP (41_arithmetic_logic.md rules R194 and R195). -/
theorem logicAtDp (rom : a.toNat < 0x2000) (op : Byte → Byte → Byte) (n : Byte) :
    FollowsPlacing a v (s.logicAtDp op n) ((s.storeByte a v).logicAtDp op n) := by
  simp only [State.logicAtDp, storeByte_dp, memRead_storeByte s rom, memWrite_storeByte _ rom]
  exact .outcome (.write fun _ => .ok _)

/-- TSID reads the byte at DP (R196). -/
theorem testAtDp (rom : a.toNat < 0x2000) (n : Byte) :
    FollowsPlacing a v (execTsid n s) (execTsid n (s.storeByte a v)) := by
  simp only [execTsid, storeByte_dp, memRead_storeByte s rom]
  exact .outcome (.write fun _ => .ok _)

/-- IXL and DXL load A from the byte at DP (42_inc_dec_pointer.md rules R244 and R245). -/
theorem loadAfterStep (rom : a.toNat < 0x2000) :
    FollowsPlacing a v (.next (s.loadAfterStep.advance 1)) (.next ((s.storeByte a v).loadAfterStep.advance 1)) := by
  simp only [State.loadAfterStep, storeByte_dp, memRead_storeByte s rom]
  exact .next _

/-- STD, IYS and DYS write a byte of the 16-bit space last (R139, R246 and R247). -/
theorem memWrite (rom : a.toNat < 0x2000) (b : Word) (w : Byte) :
    FollowsPlacing a v (.next ((s.memWrite b w).advance 1)) (.next (((s.storeByte a v).memWrite b w).advance 1)) := by
  rw [memWrite_storeByte s rom]
  exact .next _

theorem block {body : State → Except Fault State}
    (pass : ∀ u : State, Follows (·.storeByte a v) (body u) (body (u.storeByte a v))) (count : Byte) :
    FollowsPlacing a v (s.block count body) ((s.storeByte a v).block count body) :=
  .outcome (.bind (.blockLoop pass s count) fun _ => .ok _)

theorem bcdAddend (op : Byte → Byte → Bool → Byte × Bool) :
    FollowsPlacing a v (s.bcdAddend op) ((s.storeByte a v).bcdAddend op) :=
  .outcome (.bind (.loop (.addendByte op) _ _) fun _ => .ok _)

theorem bcdString (op : Byte → Byte → Bool → Byte × Bool) :
    FollowsPlacing a v (s.bcdString op) ((s.storeByte a v).bcdString op) :=
  .outcome (.bind (.loop (.stringByte op) _ _) fun _ => .ok _)

theorem digitShift {body : DigitRun → Except Fault DigitRun}
    (pass : ∀ w, Follows (DigitRun.placing a v) (body w) (body (w.placing a v))) :
    FollowsPlacing a v (s.digitShift body) ((s.storeByte a v).digitShift body) :=
  .outcome (.bind (.loop pass _ { st := { s with d := s.reg .i }, digit := 0 }) fun _ => .ok _)

theorem callTo (target length : Word) :
    FollowsPlacing a v (s.callTo target length) ((s.storeByte a v).callTo target length) :=
  .outcome (.bind (.pushWord s _) fun _ => .ok _)

theorem jumpIf (taken : Bool) (target length : Word) :
    FollowsPlacing a v (.next (s.jumpIf taken target length)) (.next ((s.storeByte a v).jumpIf taken target length)) :=
  jumpIf_storeByte s taken target length ▸ .next _

theorem input (p : InPort) : FollowsPlacing a v (s.input p) ((s.storeByte a v).input p) := by
  simp only [State.input, portIn_storeByte]
  exact .next _

end FollowsPlacing

/-! ### Every instruction but the readers of program space -/

/-- The instructions that meet memory, internal RAM, a port or a flag on which they branch are listed; every other
updates fields that the byte placed is no part of. -/
theorem exec_followsPlacing {a : Word} {v : Byte} (rom : a.toNat < 0x2000) (i : Instr) (s : State) (notRead : i ≠ .read)
    (notReadm : i ≠ .readm) (notData : i ≠ .data) (notDtj : i ≠ .dtj) :
    FollowsPlacing a v (exec i s) (exec i (s.storeByte a v)) := by
  cases i with
  | read => exact absurd rfl notRead
  | readm => exact absurd rfl notReadm
  | data => exact absurd rfl notData
  | dtj => exact absurd rfl notDtj
  | ldm | pop => exact .outcome (.read fun _ => .ok _)
  | push | leave => exact .outcome (.write fun _ => .ok _)
  | exam => exact .outcome (.read fun b => .write (s := s.setReg .a b) fun _ => .ok _)
  | ldd =>
    simp only [exec, execLdd, storeByte_dp, memRead_storeByte s rom]
    exact .next _
  | std => exact .memWrite s rom _ _
  | mvdm =>
    simp only [exec, execMvdm, storeByte_dp, memWrite_storeByte s rom]
    exact .outcome (.read fun _ => .ok _)
  | mvmd =>
    simp only [exec, execMvmd, storeByte_dp, memRead_storeByte s rom]
    exact .outcome (.write fun _ => .ok _)
  | adm | sbm | adcm | sbcm | adim | sbim => exact .arithAtP s _ _ _ _
  | anma | orma | anim | orim => exact .logicAtP s _ _ _
  | tsma | tsim => exact .testAtP s _ _
  | cpma | cpim => exact .compareAtP s _ _
  | adb | sbb => exact .outcome (.bind (.wordAtP s) fun _ => .bind (.setWordAtP s _) fun _ => .ok _)
  | anid | orid => exact .logicAtDp s rom _ _
  | tsid => exact .testAtDp s rom _
  | ixl | dxl => exact .loadAfterStep (s.stepPointer .xh .xl _) rom
  | iys | dys => exact .memWrite (s.stepPointer .yh .yl _) rom _ _
  | mvw | mvb => exact .block s Follows.moveByte _
  | exw | exb => exact .block s Follows.exchangeByte _
  | mvwd | mvbd => exact .block s (Follows.moveExternalByte rom) _
  | exwd | exbd => exact .block s (Follows.exchangeExternalByte rom) _
  | film => exact .block s Follows.fillByte _
  | fild => exact .block s (Follows.fillExternalByte rom) _
  | adn | sbn => exact .bcdAddend s _
  | adw | sbw => exact .bcdString s _
  | srw => exact .digitShift s Follows.shiftRightByte
  | slw => exact .digitShift s Follows.shiftLeftByte
  | jrnzp | jrnzm | jrncp | jrncm | jrp | jrm | jrzp | jrzm | jrcp | jrcm | jp | jpnz | jpnc | jpz | jpc =>
    exact .jumpIf s _ _ _
  | loop =>
    refine .outcome (.read fun count => .write fun t => ?_)
    cases (sub8 count 1 false).carry <;> exact .ok _
  | call | cal => exact .callTo s _ _
  | rtn => exact .outcome (.read fun _ => .read fun _ => .ok _)
  | ptj => exact .outcome (.bind (.pushWord s _) fun _ => .ok _)
  | ina | inb => exact .input s _
  | outa | outb | outf | outc => exact .outcome (.read fun _ => .ok _)
  | test =>
    simp only [exec, execTest, testIn_storeByte]
    exact .next _
  | writ
  | undefined16 | undefined17 | undefined2E | undefined33 | undefined36
  | undefined3C | undefined3D | undefined3E | undefined3F | undefined5C | undefined5E
  | undefined68 | undefined6A | undefined6C | undefined6D | undefined6E | undefined6F
  | undefined72 | undefined73 | undefined76 | undefined77 | undefined7B
  | undefinedCD | undefinedCF | undefinedD7 | undefinedD9 | undefinedDC | undefinedDE => exact .fault _
  | _ => exact .next _

/-! ### The statement -/

/-- Settles O58: the outcome with the byte placed follows the outcome without it. Memory need not be in canonical form,
since writes commute in any list of cells. -/
theorem internalRomIsInvisibleToData : Obligations.InternalRomIsInvisibleToData := by
  intro i s a v _ rom notRead notReadm notData notDtj
  have follows : FollowsPlacing a v (exec i s) (exec i (s.storeByte a v)) :=
    exec_followsPlacing rom i s notRead notReadm notData notDtj
  generalize exec i s = result, exec i (s.storeByte a v) = placed at follows ⊢
  cases follows with
  | next t => exact ⟨fun _ e => by cases e; rfl, fun _ e => (nomatch e)⟩
  | fault f => exact ⟨fun _ e => (nomatch e), fun _ e => by cases e; rfl⟩

end Sys2Proof.Machine
end

section
/-! SUPPORT. Reset, the host's entry and return, and the headers of the block instructions (70_reset_and_hazards.md
rules R410, R414, R415 and R420). -/

namespace Sys2Proof.Machine

/-- Settles O8: the two fields of the state after reset. -/
theorem resetIsRunningWithTJUnset : Obligations.ResetIsRunningWithTJUnset := ⟨rfl, rfl⟩

/-- Settles O9: reset memory lists nothing, and a running status asks nothing of the control port. -/
theorem resetSatisfiesTheInvariant : Obligations.ResetSatisfiesTheInvariant :=
  ⟨reset_mem_wf, statusAgrees_of_not_stopped _ fun _ stopped => (nomatch stopped)⟩

/-! ### The host -/

section

variable (s : State) (addr returnTo : Word) (r : Ptr)

/-- The low byte of the return address stands at R, and the store of the high byte does not reach it (R414). -/
theorem iramGet_hostEntry_low : (s.hostEntry addr returnTo r).iramGet r = loByte returnTo := by
  have apart : r + 1 ≠ r := by bv_omega
  show ((s.iramSet r (loByte returnTo)).iramSet (r + 1) (hiByte returnTo)).iramGet r = _
  rw [iramGet_iramSet, if_neg apart, iramGet_iramSet, if_pos rfl]

/-- The high byte stands at R + 1 (R414). -/
theorem iramGet_hostEntry_high : (s.hostEntry addr returnTo r).iramGet (r + 1) = hiByte returnTo :=
  (iramGet_iramSet (s.iramSet r (loByte returnTo)) (r + 1) (r + 1) (hiByte returnTo)).trans (if_pos rfl)

/-- The routine that returns at once pops the host's address, which ends the run (R415). -/
theorem execRtn_hostEntry (low : s.implemented r = true) (high : s.implemented (r + 1) = true) :
    ∃ t, execRtn (s.hostEntry addr returnTo r) = .next t ∧ t.status = .returned ∧ t.r = r + 2 ∧ t.pc = returnTo := by
  refine ⟨_, execRtn_present _ low high, ?status, rfl, ?pc⟩
  case status => exact if_pos rfl
  case pc =>
    calc joinBytes ((s.hostEntry addr returnTo r).iramGet (r + 1)) ((s.hostEntry addr returnTo r).iramGet r)
      _ = joinBytes (hiByte returnTo) (loByte returnTo) := by rw [iramGet_hostEntry_low, iramGet_hostEntry_high]
      _ = returnTo := joinBytes_hiByte_loByte returnTo

end

/-- Settles O10: the fields of the entry state, the two bytes on its stack, and the RTN that pops them. -/
theorem hostEntryAndReturn : Obligations.HostEntryAndReturn := fun s addr returnTo r =>
  ⟨rfl, rfl, iramGet_hostEntry_low s addr returnTo r, iramGet_hostEntry_high s addr returnTo r, rfl, rfl, rfl,
    execRtn_hostEntry s addr returnTo r⟩

/-! ### Headers -/

/-- Settles O35: the row of each instruction in the encoder and in the table of cycle counts. -/
theorem blockHeaders : Obligations.BlockHeaders := fun _ =>
  ⟨⟨rfl, rfl⟩, ⟨rfl, rfl⟩, ⟨rfl, rfl⟩, ⟨rfl, rfl⟩, ⟨rfl, rfl⟩, ⟨rfl, rfl⟩, ⟨rfl, rfl⟩, ⟨rfl, rfl⟩, ⟨rfl, rfl⟩,
    ⟨rfl, rfl⟩, ⟨rfl, rfl⟩, ⟨rfl, rfl⟩, ⟨rfl, rfl⟩, ⟨rfl, rfl⟩, ⟨rfl, rfl⟩, ⟨rfl, rfl⟩, rfl, rfl⟩

end Sys2Proof.Machine
end
